-- ==== Sys2Proof/Word.lean ====
section
/-! DEFINITION. The bit-vector types TFD's rules are written in: a byte of a frame or payload (R9), a
32-bit register or host-access value (R6 REG_WIDTH), and a 16-bit frame length (R6 LEN_WIDTH). -/

namespace Sys2Proof

/-- An unsigned 8-bit value: a byte of a payload, an integrity code (R9). -/
abbrev Byte := BitVec 8

/-- An unsigned 32-bit value: a register of the window, the data of a host access (R6 REG_WIDTH). -/
abbrev Word := BitVec 32

/-- The value of the frame-length field LEN.BITS (R6 LEN_WIDTH, R27). -/
abbrev FrameLen := BitVec 16

/-- A value of the variant selector CMD.VARIANT (R6 VARIANT_WIDTH, R70). -/
abbrev VariantCode := BitVec 2

/-- `zext_32(v)`: widen to 32 bits with zeros above (R9). -/
abbrev zext32 (v : BitVec w) : Word := v.setWidth 32

/-- `tc32(i)`: the 32-bit two's-complement encoding of an integer (R9). -/
abbrev tc32 (i : Int) : Word := BitVec.ofInt 32 i

end Sys2Proof
end

