-- ==== Sys2Proof/Syntax.lean ====
section
/-! DEFINITION. The commands of TFD: one constructor for each row of spec/opcode_table.json (R71). -/

namespace Sys2Proof

/-- A command, selected by CMD.VARIANT (R71). A command has no operand field: its operands are the
registers CTRL, LEN and FRAME0 to FRAME3 (R70, R74), and the ignored bits 31:2 of the command word are
no part of it, since two words that agree in bits 1:0 are the same command (R73). -/
inductive Instr where
  /-- DECODE_CLASSIC, VARIANT = 0 (R150). -/
  | decodeClassic
  /-- DECODE_EG53MA4, VARIANT = 1 (R170). -/
  | decodeEg53ma4
  /-- DECODE_SE3, VARIANT = 2 (R190). -/
  | decodeSe3
  /-- RESERVED_VARIANT, VARIANT = 3: the reserved command, whose outcome is BadVariant (R104). -/
  | reservedVariant
deriving DecidableEq, Repr

end Sys2Proof
end

