-- ==== Sys2Proof/WellFormed.lean ====
section
/-! DEFINITION. Well-formedness. A command of TFD carries no operand (R70), so every term of `Instr` is
well formed and there is no ill-formed command to refuse. What the spec does distinguish is the command
WORD software should write: its ignored bits 31:2 are 0 (R73). -/

namespace Sys2Proof

/-- Every command is well formed: it has no register field and no immediate (R70, R72). -/
def Instr.wellFormed : Instr → Bool
  | .decodeClassic => true
  | .decodeEg53ma4 => true
  | .decodeSe3 => true
  | .reservedVariant => true

/-- The command word as R73 says software should write it: bits 31:2 are 0. Any other word is still
accepted, as the same command (R72, R73); it is only not the canonical way to write it. -/
def canonicalCommandWord (w : Word) : Bool :=
  w.extractLsb' 2 30 == 0

end Sys2Proof
end

