-- ==== Sys2Proof/Decode.lean ====
section
/-! DEFINITION. The command word's decoder (R70 to R73, R80) and, after it, the encoder. Decoding of a
word is total (R72). A command is one whole 32-bit word, so fewer than four bytes are rejected by name.
R57 says that a host's byte order is never seen by TFD: the order in which `decode` takes a word's
bytes, least significant first, only serves a caller that holds bytes (log entry 6). -/

namespace Sys2Proof

/-- The field CMD.VARIANT of a command word: bits 1:0 (R70). Bits 31:2 are ignored (R73). -/
def commandVariant (w : Word) : VariantCode :=
  w.extractLsb' 0 2

/-- The command a variant code selects (R71). -/
def decodeVariant (v : VariantCode) : Instr :=
  if v = 0 then .decodeClassic
  else if v = 1 then .decodeEg53ma4
  else if v = 2 then .decodeSe3
  else .reservedVariant

/-- Decoding of the command word: total, from bits 1:0 alone (R72). -/
def decodeWord (w : Word) : Instr :=
  decodeVariant (commandVariant w)

/-- Why `decode` answers no command. -/
inductive DecodeError where
  /-- Fewer than the four bytes of a command word were given (R70: every command is exactly one 32-bit
  word). No 32-bit word is rejected (R72). -/
  | truncatedWord
deriving DecidableEq, Repr

/-- The 32-bit word whose bytes, least significant first, are given (log entry 6). -/
def wordOfBytes (b0 b1 b2 b3 : Byte) : Word :=
  b3 ++ b2 ++ b1 ++ b0

/-- The command at the head of a list of bytes, with the bytes after it. -/
def decode : List Byte → Except DecodeError (Instr × List Byte)
  | b0 :: b1 :: b2 :: b3 :: rest => .ok (decodeWord (wordOfBytes b0 b1 b2 b3), rest)
  | _ => .error .truncatedWord

/-- The bytes of a word, least significant first (log entry 6). -/
def wordBytes (w : Word) : List Byte :=
  [w.extractLsb' 0 8, w.extractLsb' 8 8, w.extractLsb' 16 8, w.extractLsb' 24 8]

/-- The VARIANT value that selects a command (R71). -/
def variantCode : Instr → VariantCode
  | .decodeClassic => 0
  | .decodeEg53ma4 => 1
  | .decodeSe3 => 2
  | .reservedVariant => 3

/-- The command word with the given ignored bits 31:2 and the command's VARIANT below them (R70). -/
def encodeWith (ignored : BitVec 30) (i : Instr) : Word :=
  ignored ++ variantCode i

/-- The command word software should write: bits 31:2 are 0 (R73). -/
def encodeWord (i : Instr) : Word :=
  encodeWith 0 i

/-- The bytes of a command's canonical word. -/
def encode (i : Instr) : List Byte :=
  wordBytes (encodeWord i)

/-- The bits a row of spec/opcode_table.json fixes: VARIANT alone, in every row. -/
def rowMask : Word := 0x00000003

/-- The value a command's row of spec/opcode_table.json gives those bits. -/
def rowMatch : Instr → Word
  | .decodeClassic => 0x00000000
  | .decodeEg53ma4 => 0x00000001
  | .decodeSe3 => 0x00000002
  | .reservedVariant => 0x00000003

/-- The command the decoder reads from the row word `w` of spec/opcode_table.json, given in `nbits`
bits; bits at and above `nbits` are 0. None where a row would be wider than the one 32-bit word of a
command (R70, R80). -/
def decodeTableWord (nbits w : Nat) : Option Instr :=
  if nbits ≤ 32 then
    match decode (wordBytes (BitVec.ofNat 32 (w % 2 ^ nbits))) with
    | .ok (i, _) => some i
    | .error _ => none
  else none

end Sys2Proof
end

