-- ==== Sys2Proof/Config.lean ====
section
/-! DEFINITION. The implementation parameters of R6 that this hardware fixes. The two parameters R6
leaves OPEN are arguments of the model and live in the state: TFD_BASE as `State.tfdPage` (log entry 1)
and the completion latency as the place of the engine's turn in `State.schedule` (log entry 2). -/

namespace Sys2Proof.Config

/-- WINDOW_BYTES: the size of the register window in bytes (R6, R50). -/
abbrev windowBytes : Nat := 256

/-- The only width of an admitted host access, in bytes (R52; REG_WIDTH / 8). -/
abbrev accessBytes : Nat := 4

/-- FRAME_CAP_BITS: the frame bits FRAME0 to FRAME3 hold (R6, R28). -/
abbrev frameCapBits : Nat := 128

/-- CLASSIC_LEN: the only accepted Classic frame length (R6, R151). -/
abbrev classicLen : FrameLen := 68

/-- CLASSIC_SKIP: the leading sync bits a Classic frame discards (R6, R152). -/
abbrev classicSkip : Nat := 4

/-- CLASSIC_COUNT: the bits a Classic decode extracts (R6, R152). -/
abbrev classicCount : Nat := 64

/-- EG_LEN: the only accepted EG53MA4 frame length (R6, R171). -/
abbrev egLen : FrameLen := 120

/-- EG_SKIP: the leading bits an EG53MA4 frame discards (R6, R172). -/
abbrev egSkip : Nat := 40

/-- EG_COUNT: the bits an EG53MA4 decode extracts (R6, R172). -/
abbrev egCount : Nat := 80

/-- The shorter of SE3_LENS (R6, R191). -/
abbrev se3LenShort : FrameLen := 52

/-- The longer of SE3_LENS (R6, R191). -/
abbrev se3LenLong : FrameLen := 53

/-- SE3_SKIP: the leading bits an SE3 frame discards (R6, R192). -/
abbrev se3Skip : Nat := 16

/-- SE3_COUNT: the bits an SE3 decode extracts (R6, R192). -/
abbrev se3Count : Nat := 36

/-- CRC_POLY: the CRC-8 polynomial of Classic (R6, R153). -/
abbrev crcPoly : Byte := 0x07

/-- CRC_INIT: the CRC-8 initial value of Classic (R6, R153). -/
abbrev crcInit : Byte := 0xF0

/-- PRESSURE_MBAR_PER_UNIT: the Classic and EG53MA4 pressure scale (R6, R156, R176). -/
abbrev pressureMbarPerUnit : Nat := 25

/-- CLASSIC_TEMP_OFFSET: the offset of the Classic temperature (R6, R157). -/
abbrev classicTempOffset : Int := 50

/-- The reset value of CTRL.SE3_PARITY_EN: parity is enforced after reset (R6, R22). -/
abbrev se3ParityEnReset : Bool := true

end Sys2Proof.Config
end

