-- ==== Sys2Proof/Machine/State.lean ====
section
/-! DEFINITION. The state of one TFD instance (R20, R21, R39, R40), the reasons a step can stop, and the
state after reset (R41). -/

namespace Sys2Proof.Machine

/-- A fault of the machine. TFD never traps (R210): no command, access or decode stops it, a failed
decode is a result code (R97), and BusError is a response to the host after which TFD goes on (R214).
So there is no fault, and the type has no constructor. -/
inductive Fault where
deriving DecidableEq, Repr

/-- A refusal: the model gives no meaning. -/
inductive Refusal where
  /-- A command without a meaning in this model, by its mnemonic. No arm of `exec` raises it. Safe. -/
  | notModelled (mnemonic : String)
  /-- `extractRefusing`, the extractor exposed on its own, was called with `start + count` past the
  frame's length or past the frame buffer: R122 says a model must refuse such a call and return no
  bytes for it. No command and no step raises it (R122: unreachable in TFD). Safe. -/
  | extractPrecondition
deriving DecidableEq, Repr

/-- One access or agent's turn: what happens at a step (R90). -/
inductive Event where
  /-- A host access step `MemRead(addr, n)` (R53, R91). -/
  | hostRead (addr n : Nat)
  /-- A host access step `MemWrite(addr, n, v)` (R54, R91). `v` is the value of an admitted access, of
  four bytes; an access of another width is refused before its value is looked at (R52, R217). -/
  | hostWrite (addr n : Nat) (v : Word)
  /-- The engine's turn: the completion step where it is enabled, that is where BUSY = 1 (R90, R93). -/
  | engine
  /-- The platform's reset step (R90, R240). -/
  | reset
deriving DecidableEq, Repr

/-- What TFD's bus port answered to the host at the last host access step (R91). -/
inductive BusResponse where
  /-- TFD answered nothing: there was no access yet, or the last one was not TFD's (R51). -/
  | none
  /-- The data of an admitted read (R53). -/
  | data (v : Word)
  /-- An admitted write was performed or ignored; it returns no data (R54, R91). -/
  | done
  /-- `raise BusError(addr)`: the access was refused with an error response (R52, R214). -/
  | busError (addr : Nat)
deriving DecidableEq, Repr

/-- The registers FRAME0 to FRAME3 (R28). -/
structure Frame where
  w0 : Word
  w1 : Word
  w2 : Word
  w3 : Word
deriving DecidableEq, Repr

/-- The result registers RESULT to PAYLOAD2, written only by the engine's commit and by reset (R21). -/
structure Results where
  /-- RESULT, offset 0x20 (R29). -/
  result : Word
  /-- SENSOR_ID, offset 0x24 (R32). -/
  sensorId : Word
  /-- FLAGS, offset 0x28 (R32). -/
  flags : Word
  /-- PRESSURE_RAW, offset 0x2C (R33). -/
  pressureRaw : Word
  /-- PRESSURE, offset 0x30 (R33). -/
  pressure : Word
  /-- TEMPERATURE, offset 0x34 (R34). -/
  temperature : Word
  /-- CHECK, offset 0x38 (R36). -/
  check : Word
  /-- PAYLOAD0, offset 0x3C (R37). -/
  payload0 : Word
  /-- PAYLOAD1, offset 0x40 (R37). -/
  payload1 : Word
  /-- PAYLOAD2, offset 0x44 (R37). -/
  payload2 : Word
deriving DecidableEq, Repr

/-- The registers of the window (R21). CMD stores nothing that can be read back (R23). -/
inductive Reg where
  | ctrl
  | cmd
  | status
  | len
  | frame (k : Fin 4)
  | result
  | sensorId
  | flags
  | pressureRaw
  | pressure
  | temperature
  | check
  | payload (k : Fin 3)
deriving DecidableEq, Repr

/-- The whole state. The first block is TFD's own, as R40 closes it; CTRL, STATUS and LEN are held as
their fields, since their reserved bits read as zero and ignore writes (R38). The last three fields are
the MODEL's own: the platform's choice of TFD_BASE, the answer on the bus port, and what happens next
(log entries 1, 2, 3). -/
structure State where
  /-- CTRL bit 0, SE3_PARITY_EN (R22). -/
  se3ParityEn : Bool
  /-- STATUS bit 0, BUSY (R24). -/
  busy : Bool
  /-- STATUS bit 1, DONE (R25). -/
  done : Bool
  /-- STATUS bit 2, WERR (R26). -/
  werr : Bool
  /-- LEN bits 15:0, BITS (R27). -/
  lenBits : FrameLen
  /-- FRAME0 to FRAME3 (R28). -/
  frame : Frame
  /-- RESULT to PAYLOAD2 (R29 to R37). -/
  results : Results
  /-- PENDING_VAR, the hidden latch of the accepted command's variant (R39). -/
  pendingVar : VariantCode
  /-- TFD_BASE divided by 256: any value the platform chooses (R6). The model's own field. -/
  tfdPage : Nat
  /-- What the bus port answered at the last host access (R91). The model's own field. -/
  response : BusResponse
  /-- What happens at the coming steps, first to last: the schedule's choice (R90, R95). The model's
  own field. -/
  schedule : List Event
deriving DecidableEq, Repr

/-- FRAME0 to FRAME3 after reset (R41). -/
def Frame.reset : Frame := { w0 := 0, w1 := 0, w2 := 0, w3 := 0 }

/-- The result registers after reset (R41). -/
def Results.reset : Results :=
  { result := 0x00333300, sensorId := 0, flags := 0, pressureRaw := 0, pressure := 0, temperature := 0,
    check := 0, payload0 := 0, payload1 := 0, payload2 := 0 }

/-- The machine right after reset (R41), with nothing scheduled. The values of the model's own fields
are named in log entries 1, 2 and 3. -/
def State.reset : State :=
  { se3ParityEn := Config.se3ParityEnReset, busy := false, done := false, werr := false, lenBits := 0,
    frame := Frame.reset, results := Results.reset, pendingVar := 0,
    tfdPage := 0, response := .none, schedule := [] }

end Sys2Proof.Machine
end

