-- ==== Sys2Proof/Machine/Outcome.lean ====
section
/-! DEFINITION. The outcome record a decode returns (R97), with the enumerations of R29 to R31 and the
two failure constructors. -/

namespace Sys2Proof.Machine

/-- RESULT.CODE of an outcome (R29, R97). NONE (0) belongs to the reset value alone, and 5, 6, 7 are
never written (R29), so an outcome's code is one of these four. -/
inductive Code where
  | ok
  | frameLengthMismatch
  | integrityFailure
  | badVariant
deriving DecidableEq, Repr

/-- RESULT.MODEL (R30). -/
inductive ModelName where
  | schrader
  | schraderEg53ma4
  | schraderSe3
  | none
deriving DecidableEq, Repr

/-- RESULT.INTEG: the reading's integrity_status (R30). -/
inductive IntegrityStatus where
  | crc
  | checksum
  | unverified
  | none
deriving DecidableEq, Repr

/-- RESULT.PUNIT: the unit of PRESSURE (R31). -/
inductive PressureUnit where
  | mbar
  | tenthPsi
  | none
deriving DecidableEq, Repr

/-- RESULT.TUNIT: the unit of TEMPERATURE (R31). -/
inductive TemperatureUnit where
  | celsius
  | fahrenheit
  | none
deriving DecidableEq, Repr

/-- The numeric code of RESULT.CODE (R29). -/
def Code.bits : Code → BitVec 3
  | .ok => 1
  | .frameLengthMismatch => 2
  | .integrityFailure => 3
  | .badVariant => 4

/-- The numeric code of RESULT.MODEL (R30). -/
def ModelName.bits : ModelName → BitVec 2
  | .schrader => 0
  | .schraderEg53ma4 => 1
  | .schraderSe3 => 2
  | .none => 3

/-- The numeric code of RESULT.INTEG (R30). -/
def IntegrityStatus.bits : IntegrityStatus → BitVec 2
  | .crc => 0
  | .checksum => 1
  | .unverified => 2
  | .none => 3

/-- The numeric code of RESULT.PUNIT; 2 is never written (R31). -/
def PressureUnit.bits : PressureUnit → BitVec 2
  | .mbar => 0
  | .tenthPsi => 1
  | .none => 3

/-- The numeric code of RESULT.TUNIT; 2 is never written (R31). -/
def TemperatureUnit.bits : TemperatureUnit → BitVec 2
  | .celsius => 0
  | .fahrenheit => 1
  | .none => 3

/-- The outcome record (R97). A field not named has its empty value, as R97 gives it. -/
structure DecodeOutcome where
  code : Code
  var : VariantCode
  model : ModelName := .none
  integ : IntegrityStatus := .none
  punit : PressureUnit := .none
  tunit : TemperatureUnit := .none
  chkValid : Bool := false
  chkPass : Bool := false
  parEnf : Bool := false
  sensorId : Word := 0
  flags : Word := 0
  praw : Byte := 0
  pressure : BitVec 16 := 0
  temperature : Int := 0
  /-- The computed integrity code, `calc` of R97 (a reserved word in Lean). -/
  calcCode : Byte := 0
  /-- The received integrity code, `recv` of R97. -/
  recvCode : Byte := 0
  /-- The payload bytes pl[0..9]. -/
  pl : List Byte := List.replicate 10 0
deriving DecidableEq, Repr

/-- `fail(c)`: a failure without extraction (R97). -/
def fail (c : Code) (var : VariantCode) : DecodeOutcome :=
  { code := c, var := var }

/-- `failIntegrity(calc, recv, pl, pe)`: a failed integrity code, with its diagnostics and no reading
(R97, R213). -/
def failIntegrity (var : VariantCode) (calcCode recvCode : Byte) (pl : List Byte) (pe : Bool) : DecodeOutcome :=
  { code := .integrityFailure, var := var, chkValid := true, chkPass := false, parEnf := pe,
    calcCode := calcCode, recvCode := recvCode, pl := pl }

end Sys2Proof.Machine
end

