-- ==== Sys2Proof/Machine/Operands.lean ====
section
/-! DEFINITION. The operands of the decode commands: the frame's bits (R28), the bit-field extractor
(R120 to R125) and the bytes of the payload it returns (R12). -/

namespace Sys2Proof.Machine

/-- The register FRAME`k` (R28). There is no FRAME4: positions past 127 are never read (R124), and the
last arm only makes the function total (log entry 7). -/
def frameWord (f : Frame) : Nat → Word
  | 0 => f.w0
  | 1 => f.w1
  | 2 => f.w2
  | 3 => f.w3
  | _ => 0

/-- `FrameBit(i)`, the frame's bit `i` counted from 0 at the first-received bit: bit `31 - (i & 31)` of
the register FRAME`{i >> 5}` (R28). -/
def frameBit (f : Frame) (i : Nat) : Bool :=
  (frameWord f (i / 32)).getLsbD (31 - i % 32)

/-- The byte whose bit 7 is `bit 0`, down to bit 0, which is `bit 7`: most significant bit first
(R56, R121). -/
def packByte (bit : Nat → Bool) : Byte :=
  BitVec.ofBool (bit 0) ++ BitVec.ofBool (bit 1) ++ BitVec.ofBool (bit 2) ++ BitVec.ofBool (bit 3) ++
    BitVec.ofBool (bit 4) ++ BitVec.ofBool (bit 5) ++ BitVec.ofBool (bit 6) ++ BitVec.ofBool (bit 7)

/-- Byte `j` of the extracted field: its bits past `count` are 0 (R121). -/
def extractByte (f : Frame) (start count j : Nat) : Byte :=
  packByte fun k => decide (8 * j + k < count) && frameBit f (start + (8 * j + k))

/-- The precondition of `Extract(start, count)` on a frame of `len` bits (R122), with the capacity of
the frame buffer, past which no frame bit exists (R28, log entry 7). -/
abbrev extractPre (len start count : Nat) : Prop :=
  start + count ≤ len ∧ start + count ≤ Config.frameCapBits

/-- `Extract(start, count)` on a frame of `len` bits: `ceil(count / 8)` bytes, left-justified (R121).
The precondition of R122 is an argument, so a call that breaks it cannot be written. -/
def extract (f : Frame) (len start count : Nat) (_pre : extractPre len start count) : List Byte :=
  (List.range ((count + 7) / 8)).map (extractByte f start count)

/-- The extractor exposed on its own: it refuses a call that breaks the precondition (R122). -/
def extractRefusing (f : Frame) (len start count : Nat) : Except Refusal (List Byte) :=
  if h : extractPre len start count then .ok (extract f len start count h)
  else .error .extractPrecondition

/-- `b[j]`, byte `j` of a payload (R12); a byte past the payload's end is 0 (R37). -/
def payloadByte (b : List Byte) (j : Nat) : Byte :=
  b.getD j 0

end Sys2Proof.Machine
end

