-- ==== Sys2Proof/Machine/Integrity.lean ====
section
/-! DEFINITION. The three integrity validators: CRC8 (R130), SUM8 (R134) and XPAR (R137). -/

namespace Sys2Proof.Machine

/-- One shift of the CRC register: left, with the polynomial added when the top bit was 1 (R130). -/
def crcShift (poly r : Byte) : Byte :=
  if r.msb then (r <<< 1) ^^^ poly else r <<< 1

/-- One byte into the CRC register: the byte is added and the register shifted eight times (R130). -/
def crcByte (poly r byte : Byte) : Byte :=
  (crcShift poly)^[8] (r ^^^ byte)

/-- `CRC8(poly, init, bytes)`: most significant bit first, not reflected, no final XOR (R130). -/
def crc8 (poly init : Byte) (bytes : List Byte) : Byte :=
  bytes.foldl (crcByte poly) init

/-- `SUM8(bytes)`: the sum of the unsigned byte values, reduced modulo 256 (R134). -/
def sum8 (bytes : List Byte) : Byte :=
  BitVec.ofNat 8 (bytes.map BitVec.toNat).sum

/-- The accumulator of `XPAR`: the XOR of the bytes from a zero start (R137). -/
def xparAcc (bytes : List Byte) : Byte :=
  bytes.foldl (fun acc b => acc ^^^ b) 0

/-- `XPAR(bytes)`: the XOR of every bit of every byte (R137). -/
def xpar (bytes : List Byte) : Bool :=
  let acc := xparAcc bytes
  acc.getLsbD 7 ^^ acc.getLsbD 6 ^^ acc.getLsbD 5 ^^ acc.getLsbD 4 ^^
    acc.getLsbD 3 ^^ acc.getLsbD 2 ^^ acc.getLsbD 1 ^^ acc.getLsbD 0

end Sys2Proof.Machine
end

