-- ==== Sys2Proof/Machine/Flags.lean ====
section
/-! DEFINITION. The status bits and how they are laid out in registers: the words CTRL, STATUS and LEN a
host reads (R22, R24, R27), the RESULT word an outcome commits (R29, R94), and the fields of RESULT and
CHECK by name. -/

namespace Sys2Proof.Machine

/-- CTRL as read: SE3_PARITY_EN in bit 0, the reserved bits 0 (R22). -/
def ctrlWord (s : State) : Word :=
  zext32 (BitVec.ofBool s.se3ParityEn)

/-- STATUS as read: BUSY, DONE and WERR in bits 0, 1 and 2, the reserved bits 0 (R24). -/
def statusWord (s : State) : Word :=
  zext32 (BitVec.ofBool s.werr ++ BitVec.ofBool s.done ++ BitVec.ofBool s.busy)

/-- LEN as read: BITS in bits 15:0, the reserved bits 0 (R27). -/
def lenWord (s : State) : Word :=
  zext32 s.lenBits

/-- The RESULT word of an outcome (R94). -/
def resultWord (o : DecodeOutcome) : Word :=
  zext32 o.code.bits ||| (zext32 o.var <<< 4) ||| (zext32 o.model.bits <<< 8) |||
    (zext32 o.integ.bits <<< 12) ||| (zext32 o.punit.bits <<< 16) ||| (zext32 o.tunit.bits <<< 20) |||
    (zext32 (BitVec.ofBool o.chkValid) <<< 24) ||| (zext32 (BitVec.ofBool o.chkPass) <<< 25) |||
    (zext32 (BitVec.ofBool o.parEnf) <<< 26)

/-- RESULT.CODE, bits 2:0 (R29). -/
def resultCode (r : Word) : BitVec 3 := r.extractLsb' 0 3

/-- RESULT.VAR, bits 5:4 (R29). -/
def resultVar (r : Word) : VariantCode := r.extractLsb' 4 2

/-- RESULT.MODEL, bits 9:8 (R29, R30). -/
def resultModel (r : Word) : BitVec 2 := r.extractLsb' 8 2

/-- RESULT.INTEG, bits 13:12 (R29, R30). -/
def resultInteg (r : Word) : BitVec 2 := r.extractLsb' 12 2

/-- RESULT.PUNIT, bits 17:16 (R29, R31). -/
def resultPunit (r : Word) : BitVec 2 := r.extractLsb' 16 2

/-- RESULT.TUNIT, bits 21:20 (R29, R31). -/
def resultTunit (r : Word) : BitVec 2 := r.extractLsb' 20 2

/-- RESULT.CHK_VALID, bit 24 (R35). -/
def resultChkValid (r : Word) : Bool := r.getLsbD 24

/-- RESULT.CHK_PASS, bit 25 (R35). -/
def resultChkPass (r : Word) : Bool := r.getLsbD 25

/-- RESULT.PAR_ENF, bit 26 (R35). -/
def resultParEnf (r : Word) : Bool := r.getLsbD 26

/-- The reserved bits of RESULT: 3, 7:6, 11:10, 15:14, 19:18, 23:22 and 31:27 (R29). -/
def resultReservedMask : Word := 0xF8CCCCC8

/-- CHECK.CALC, bits 7:0 (R36). -/
def checkCalc (c : Word) : Byte := c.extractLsb' 0 8

/-- CHECK.RECV, bits 15:8 (R36). -/
def checkRecv (c : Word) : Byte := c.extractLsb' 8 8

end Sys2Proof.Machine
end

