-- ==== Sys2Proof/Machine/Ops.lean ====
section
/-! DEFINITION. The named operations over the registers: commit and completion (R93, R94), command
acceptance (R92), ignored writes (R215), reset (R240), and host accesses with their BusError response
(R51 to R54, R214). TFD has no trap entry and no return from one (R219, R220): what stands in their
place is the commit of a failure outcome (`complete`) and the error response (`respond (.busError _)`). -/

namespace Sys2Proof.Machine

/-- `commit(o)`: every result register from the outcome (R94). -/
def commit (o : DecodeOutcome) : Results :=
  { result := resultWord o
    sensorId := o.sensorId
    flags := o.flags
    pressureRaw := zext32 o.praw
    pressure := zext32 o.pressure
    temperature := tc32 o.temperature
    check := zext32 (o.recvCode ++ o.calcCode)
    payload0 := payloadByte o.pl 0 ++ payloadByte o.pl 1 ++ payloadByte o.pl 2 ++ payloadByte o.pl 3
    payload1 := payloadByte o.pl 4 ++ payloadByte o.pl 5 ++ payloadByte o.pl 6 ++ payloadByte o.pl 7
    payload2 := payloadByte o.pl 8 ++ payloadByte o.pl 9 ++ (0 : BitVec 16) }

/-- The effect of the completion step on the state, given the outcome (R93). -/
def complete (o : DecodeOutcome) (s : State) : State :=
  { s with results := commit o, busy := false, done := true }

/-- Command acceptance, `accept(var)` (R92). -/
def accept (var : VariantCode) (s : State) : State :=
  { s with pendingVar := var, busy := true, done := false }

/-- A write ignored because BUSY = 1: only WERR is set (R26, R215). -/
def ignoreWrite (s : State) : State :=
  { s with werr := true }

/-- WERR cleared by a write of 1 to its bit (R26). -/
def clearWerr (s : State) : State :=
  { s with werr := false }

/-- A write to CTRL: SE3_PARITY_EN from bit 0, the other bits discarded (R22, R54). -/
def setCtrl (v : Word) (s : State) : State :=
  { s with se3ParityEn := v.getLsbD 0 }

/-- A write to LEN: BITS from bits 15:0, the other bits discarded (R27, R54). -/
def setLen (v : Word) (s : State) : State :=
  { s with lenBits := v.extractLsb' 0 16 }

/-- The frame with FRAME`k` replaced (R28). -/
def frameSet (f : Frame) (k : Fin 4) (v : Word) : Frame :=
  match k with
  | 0 => { f with w0 := v }
  | 1 => { f with w1 := v }
  | 2 => { f with w2 := v }
  | 3 => { f with w3 := v }

/-- A write to FRAME`k`: all 32 bits (R28, R54). -/
def setFrame (k : Fin 4) (v : Word) (s : State) : State :=
  { s with frame := frameSet s.frame k v }

/-- The bus port's answer to the access of this step (R91). -/
def respond (r : BusResponse) (s : State) : State :=
  { s with response := r }

/-- The schedule with its first event taken. -/
def withSchedule (rest : List Event) (s : State) : State :=
  { s with schedule := rest }

/-- The platform's reset step: every register and the hidden latch as after reset, a decode in flight
abandoned (R240). The platform's base address, the host's last answer and the coming events are not
TFD's state and stay (log entries 1, 2, 3). -/
def resetTfd (s : State) : State :=
  { State.reset with tfdPage := s.tfdPage, response := s.response, schedule := s.schedule }

/-- TFD_BASE: a multiple of 256 (R6). -/
def tfdBase (s : State) : Nat :=
  Config.windowBytes * s.tfdPage

/-- The window offset of a bus address, or none where the address is not TFD's (R51). -/
def windowOffset (s : State) (addr : Nat) : Option (BitVec 8) :=
  if tfdBase s ≤ addr ∧ addr ≤ tfdBase s + 0xFF then some (BitVec.ofNat 8 (addr - tfdBase s)) else none

/-- The offset of a register in the window (R21). -/
def regOffset : Reg → BitVec 8
  | .ctrl => 0x00
  | .cmd => 0x04
  | .status => 0x08
  | .len => 0x0C
  | .frame k => 0x10 + 4 * BitVec.ofNat 8 k.val
  | .result => 0x20
  | .sensorId => 0x24
  | .flags => 0x28
  | .pressureRaw => 0x2C
  | .pressure => 0x30
  | .temperature => 0x34
  | .check => 0x38
  | .payload k => 0x3C + 4 * BitVec.ofNat 8 k.val

/-- The register a window offset selects, by `off & 0xFC`; none in the reserved space (R51, R38). -/
def regAt (off : BitVec 8) : Option Reg :=
  match (off &&& 0xFC).toNat with
  | 0x00 => some .ctrl
  | 0x04 => some .cmd
  | 0x08 => some .status
  | 0x0C => some .len
  | 0x10 => some (.frame 0)
  | 0x14 => some (.frame 1)
  | 0x18 => some (.frame 2)
  | 0x1C => some (.frame 3)
  | 0x20 => some .result
  | 0x24 => some .sensorId
  | 0x28 => some .flags
  | 0x2C => some .pressureRaw
  | 0x30 => some .pressure
  | 0x34 => some .temperature
  | 0x38 => some .check
  | 0x3C => some (.payload 0)
  | 0x40 => some (.payload 1)
  | 0x44 => some (.payload 2)
  | _ => none

/-- The value a register reads as (R22 to R37, R53). -/
def readReg (s : State) : Reg → Word
  | .ctrl => ctrlWord s
  | .cmd => 0
  | .status => statusWord s
  | .len => lenWord s
  | .frame k => frameWord s.frame k.val
  | .result => s.results.result
  | .sensorId => s.results.sensorId
  | .flags => s.results.flags
  | .pressureRaw => s.results.pressureRaw
  | .pressure => s.results.pressure
  | .temperature => s.results.temperature
  | .check => s.results.check
  | .payload 0 => s.results.payload0
  | .payload 1 => s.results.payload1
  | .payload 2 => s.results.payload2

/-- The value a window offset reads as; the reserved space reads 0 (R38, R53). -/
def readWindow (s : State) (off : BitVec 8) : Word :=
  match regAt off with
  | some r => readReg s r
  | none => 0

/-- The registers whose writes are ignored while BUSY = 1: CTRL, CMD, LEN and FRAME0 to FRAME3
(R26, R243, R245). -/
def guardedByBusy : Reg → Bool
  | .ctrl => true
  | .cmd => true
  | .len => true
  | .frame _ => true
  | _ => false

/-- A write that is not ignored for BUSY (R54): an input register takes the value, CMD accepts the
command, STATUS clears WERR on a 1 in bit 2, and a read-only register ignores it. -/
def honourWrite (r : Reg) (v : Word) (s : State) : State :=
  match r with
  | .ctrl => setCtrl v s
  | .cmd => accept (commandVariant v) s
  | .status => if v.getLsbD 2 then clearWerr s else s
  | .len => setLen v s
  | .frame k => setFrame k v s
  | .result => s
  | .sensorId => s
  | .flags => s
  | .pressureRaw => s
  | .pressure => s
  | .temperature => s
  | .check => s
  | .payload _ => s

/-- A write of a register: the BUSY test comes first (R54, R217). -/
def writeReg (r : Reg) (v : Word) (s : State) : State :=
  if guardedByBusy r && s.busy then ignoreWrite s else honourWrite r v s

/-- A write at a window offset; the reserved space ignores it (R38, R54). -/
def writeWindow (off : BitVec 8) (v : Word) (s : State) : State :=
  match regAt off with
  | some r => writeReg r v s
  | none => s

/-- A host access is admitted when it is 4 bytes wide at a 4-aligned offset (R52). -/
def admitted (n : Nat) (off : BitVec 8) : Bool :=
  n == Config.accessBytes && off &&& 3 == 0

/-- A host access step that reads (R51 to R53). An address outside the window is not TFD's: TFD sees no
access and answers nothing (R51, log entry 4). -/
def hostRead (addr n : Nat) (s : State) : State :=
  match windowOffset s addr with
  | none => respond .none s
  | some off =>
    if admitted n off then respond (.data (readWindow s off)) s else respond (.busError addr) s

/-- A host access step that writes (R51, R52, R54). -/
def hostWrite (addr n : Nat) (v : Word) (s : State) : State :=
  match windowOffset s addr with
  | none => respond .none s
  | some off =>
    if admitted n off then respond .done (writeWindow off v s) else respond (.busError addr) s

/-- The command in flight as a command word: PENDING_VAR in bits 1:0 (R39, R92). It is what the
completion step decodes. -/
def latchedWord (s : State) : Word :=
  zext32 s.pendingVar

end Sys2Proof.Machine
end

