-- ==== Sys2Proof/Machine/Classic.lean ====
section
/-! DEFINITION. DECODE_CLASSIC (R150 to R158). -/

namespace Sys2Proof.Machine

/-- The Classic integrity check, and the fields when it passes, over the payload `b` (R153 to R158). -/
def unpackClassic (b : List Byte) : DecodeOutcome :=
  let calcCode := crc8 Config.crcPoly Config.crcInit (b.take 7)
  let recvCode := payloadByte b 7
  let pl := b ++ [0, 0]
  if calcCode = recvCode then
    { code := .ok, var := 0, model := .schrader, integ := .crc, punit := .mbar, tunit := .celsius
      chkValid := true, chkPass := true, parEnf := false
      flags := zext32 ((payloadByte b 0).extractLsb' 0 4 ++ (payloadByte b 1).extractLsb' 4 4)
      sensorId := zext32 ((payloadByte b 1).extractLsb' 0 4 ++ payloadByte b 2 ++ payloadByte b 3 ++
        payloadByte b 4)
      praw := payloadByte b 5
      pressure := BitVec.ofNat 16 (Config.pressureMbarPerUnit * (payloadByte b 5).toNat)
      temperature := ((payloadByte b 6).toNat : Int) - Config.classicTempOffset
      calcCode := calcCode, recvCode := recvCode, pl := pl }
  else failIntegrity 0 calcCode recvCode pl false

/-- `DecodeClassic(len)` (R150): the length check, then the extraction and the rest (R99, R100). -/
def decodeClassic (len : FrameLen) (f : Frame) : DecodeOutcome :=
  if h : len = Config.classicLen then
    unpackClassic (extract f len.toNat Config.classicSkip Config.classicCount (by rw [h]; decide))
  else fail .frameLengthMismatch 0

/-- DECODE_CLASSIC at its completion step (R93, R150): CTRL is not read. -/
def execDecodeClassic (s : State) : Host.Outcome State Fault Refusal :=
  .next (complete (decodeClassic s.lenBits s.frame) s)

end Sys2Proof.Machine
end

