-- ==== Sys2Proof/Machine/Eg53ma4.lean ====
section
/-! DEFINITION. DECODE_EG53MA4 (R170 to R178). -/

namespace Sys2Proof.Machine

/-- The EG53MA4 integrity check, and the fields when it passes, over the payload `b` (R173 to R178). -/
def unpackEg53ma4 (b : List Byte) : DecodeOutcome :=
  let calcCode := sum8 (b.take 9)
  let recvCode := payloadByte b 9
  if calcCode = recvCode then
    { code := .ok, var := 1, model := .schraderEg53ma4, integ := .checksum, punit := .mbar
      tunit := .fahrenheit
      chkValid := true, chkPass := true, parEnf := false
      flags := payloadByte b 0 ++ payloadByte b 1 ++ payloadByte b 2 ++ payloadByte b 3
      sensorId := zext32 (payloadByte b 4 ++ payloadByte b 5 ++ payloadByte b 6)
      praw := payloadByte b 7
      pressure := BitVec.ofNat 16 (Config.pressureMbarPerUnit * (payloadByte b 7).toNat)
      temperature := ((payloadByte b 8).toNat : Int)
      calcCode := calcCode, recvCode := recvCode, pl := b }
  else failIntegrity 1 calcCode recvCode b false

/-- `DecodeEG53MA4(len)` (R170): the length check, then the extraction and the rest (R99, R100). -/
def decodeEg53ma4 (len : FrameLen) (f : Frame) : DecodeOutcome :=
  if h : len = Config.egLen then
    unpackEg53ma4 (extract f len.toNat Config.egSkip Config.egCount (by rw [h]; decide))
  else fail .frameLengthMismatch 1

/-- DECODE_EG53MA4 at its completion step (R93, R170): CTRL is not read. -/
def execDecodeEg53ma4 (s : State) : Host.Outcome State Fault Refusal :=
  .next (complete (decodeEg53ma4 s.lenBits s.frame) s)

end Sys2Proof.Machine
end

