-- ==== Sys2Proof/Machine/Reserved.lean ====
section
/-! DEFINITION. RESERVED_VARIANT, the reserved command VARIANT = 3 (R104). -/

namespace Sys2Proof.Machine

/-- `fail(BAD_VARIANT)`: LEN, FRAME0 to FRAME3 and CTRL are not read (R104). -/
def decodeReserved : DecodeOutcome :=
  fail .badVariant 3

/-- RESERVED_VARIANT at its completion step (R93, R104). -/
def execReservedVariant (s : State) : Host.Outcome State Fault Refusal :=
  .next (complete decodeReserved s)

end Sys2Proof.Machine
end

