-- ==== Sys2Proof/Machine/Se3.lean ====
section
/-! DEFINITION. DECODE_SE3 (R190 to R202). -/

namespace Sys2Proof.Machine

/-- `m4`: b[4] with only its top three bits (R194). -/
def se3Mask (b4 : Byte) : Byte :=
  b4 &&& 0xE0

/-- The received parity bit, `b[4]` bit 4 (R193). -/
def se3Received (b : List Byte) : Byte :=
  (BitVec.ofBool ((payloadByte b 4).getLsbD 4)).setWidth 8

/-- The computed parity bit, over the five masked bytes (R195). -/
def se3Computed (b : List Byte) : Byte :=
  (BitVec.ofBool (xpar [payloadByte b 0, payloadByte b 1, payloadByte b 2, payloadByte b 3,
    se3Mask (payloadByte b 4)])).setWidth 8

/-- The SE3 parity check, and the fields when it passes or is not enforced, over the payload `b`
(R193 to R201). -/
def unpackSe3 (b : List Byte) (enf : Bool) : DecodeOutcome :=
  let recvCode := se3Received b
  let m4 := se3Mask (payloadByte b 4)
  let calcCode := se3Computed b
  let pl := b ++ [0, 0, 0, 0, 0]
  if calcCode ≠ recvCode ∧ enf = true then failIntegrity 2 calcCode recvCode pl true
  else
    let praw := (payloadByte b 3).extractLsb' 0 5 ++ m4.extractLsb' 5 3
    { code := .ok, var := 2, model := .schraderSe3, integ := .unverified, punit := .tenthPsi
      tunit := .none
      chkValid := true, chkPass := decide (calcCode = recvCode), parEnf := enf
      flags := zext32 ((payloadByte b 0).extractLsb' 5 3)
      sensorId := zext32
        (((payloadByte b 0).extractLsb' 0 5 ++ (payloadByte b 1).extractLsb' 5 3) ++
          ((payloadByte b 1).extractLsb' 0 5 ++ (payloadByte b 2).extractLsb' 5 3) ++
          ((payloadByte b 2).extractLsb' 0 5 ++ (payloadByte b 3).extractLsb' 5 3))
      praw := praw
      pressure := BitVec.ofNat 16 (2 * praw.toNat + 1)
      temperature := 0
      calcCode := calcCode, recvCode := recvCode, pl := pl }

/-- `DecodeSE3(len, enf)` (R190): the length check, then the extraction and the rest (R99, R100). -/
def decodeSe3 (len : FrameLen) (f : Frame) (enf : Bool) : DecodeOutcome :=
  if h : len = Config.se3LenShort ∨ len = Config.se3LenLong then
    unpackSe3 (extract f len.toNat Config.se3Skip Config.se3Count
      (by rcases h with h | h <;> rw [h] <;> decide)) enf
  else fail .frameLengthMismatch 2

/-- DECODE_SE3 at its completion step (R93, R190): `enf` is CTRL.SE3_PARITY_EN. -/
def execDecodeSe3 (s : State) : Host.Outcome State Fault Refusal :=
  .next (complete (decodeSe3 s.lenBits s.frame s.se3ParityEn) s)

end Sys2Proof.Machine
end

