-- ==== Sys2Proof/Machine/Dispatch.lean ====
section
/-! DEFINITION. The variant selector: exactly one decoder runs per command (R96, R98). -/

namespace Sys2Proof.Machine

/-- The effect of a command at its completion step (R93, R96). Acceptance, which comes before it, is
`accept` (R92) and is the same for every command; see log entry 5. -/
def exec (i : Instr) (s : State) : Host.Outcome State Fault Refusal :=
  match i with
  | .decodeClassic => Sys2Proof.Machine.execDecodeClassic s
  | .decodeEg53ma4 => Sys2Proof.Machine.execDecodeEg53ma4 s
  | .decodeSe3 => Sys2Proof.Machine.execDecodeSe3 s
  | .reservedVariant => Sys2Proof.Machine.execReservedVariant s

end Sys2Proof.Machine
end

