-- ==== Sys2Proof/Machine/Engine.lean ====
section
/-! DEFINITION. The step relation of R90 as a function of the schedule: the engine's turn, each event's
effect, and the function `Decode` of R96. -/

namespace Sys2Proof.Machine

/-- `Decode(var, len, frame, enf)`: the inner layer, a total function of its four arguments (R5, R96). -/
def decodeFrame (var : VariantCode) (len : FrameLen) (f : Frame) (enf : Bool) : DecodeOutcome :=
  match decodeVariant var with
  | .decodeClassic => decodeClassic len f
  | .decodeEg53ma4 => decodeEg53ma4 len f
  | .decodeSe3 => decodeSe3 len f enf
  | .reservedVariant => decodeReserved

/-- The engine's turn: the completion step when BUSY = 1, which runs the command in flight (R93); the
step is not enabled when BUSY = 0 and nothing happens (R90, log entry 2). -/
def engineTurn (s : State) : Host.Outcome State Fault Refusal :=
  if s.busy then exec (decodeWord (latchedWord s)) s else .next s

/-- One step of the relation of R90. -/
def perform (e : Event) (s : State) : Host.Outcome State Fault Refusal :=
  match e with
  | .hostRead addr n => .next (hostRead addr n s)
  | .hostWrite addr n v => .next (hostWrite addr n v s)
  | .engine => engineTurn s
  | .reset => .next (resetTfd s)

/-- The first event of the schedule; with nothing scheduled the engine has its turn, so that every
accepted command completes (R95, log entry 2). -/
def nextTurn (s : State) : Host.Outcome State Fault Refusal :=
  match s.schedule with
  | [] => engineTurn s
  | e :: rest => perform e (withSchedule rest s)

/-- The schedule with the engine's turn first. With nothing scheduled the engine has its turn as it is
(R95, log entry 2). -/
def engineFirst : List Event → List Event
  | [] => []
  | e :: rest => .engine :: e :: rest

/-- The state right after a command word was accepted, with the engine's turn coming next: where TFD
"fetches" a command is PENDING_VAR with BUSY = 1 (R39, R92, log entry 5). -/
def commandInFlight (w : Word) (s : State) : State :=
  withSchedule (engineFirst s.schedule) (accept (commandVariant w) s)

end Sys2Proof.Machine
end

