-- ==== Sys2Proof/Machine/Step.lean ====
section
/-! DEFINITION. The step function, and the placing of a command where the next step runs it. -/

namespace Sys2Proof.Machine

/-- One step (R90). -/
def step (s : State) : Host.Outcome State Fault Refusal :=
  nextTurn s

/-- `s` with the command word `w` of `nbits` bits accepted and the engine's turn next, so that the very
next step completes exactly that command (R92, R93, log entry 5). -/
def State.withFetchWord (s : State) (nbits w : Nat) : State :=
  commandInFlight (BitVec.ofNat 32 (w % 2 ^ nbits)) s

end Sys2Proof.Machine
end

