-- ==== Sys2Proof/Machine/HostProgram.lean ====
section
/-! DEFINITION. The notation host programs are written in (R81, R82): a program's encoding is its list of
accesses, and each access is one scheduled event. The host itself is outside TFD (R91); this file only
says which accesses a line of the notation stands for. -/

namespace Sys2Proof.Machine

/-- One access of a host program's encoding: (W, offset, data) or (R, offset, -) (R81). The offset is any
window offset: `RD 0x22` is a line of the notation too. -/
inductive HostAccess where
  /-- `WR REG, v`. -/
  | wr (off : BitVec 8) (v : Word)
  /-- `RD REG`. -/
  | rd (off : BitVec 8)
deriving DecidableEq, Repr

/-- The event an access is: four bytes wide, at TFD_BASE plus the offset (R81). -/
def HostAccess.event (base : Nat) : HostAccess → Event
  | .wr off v => .hostWrite (base + off.toNat) Config.accessBytes v
  | .rd off => .hostRead (base + off.toNat) Config.accessBytes

/-- `WR REG, v` for a register by name (R81). -/
def wrReg (r : Reg) (v : Word) : HostAccess := .wr (regOffset r) v

/-- `RD REG` for a register by name (R81). -/
def rdReg (r : Reg) : HostAccess := .rd (regOffset r)

/-- The condition that ends `POLL REG, m, v`: `(value & m) = v` (R81). -/
def pollEnds (m v value : Word) : Bool :=
  value &&& m == v

/-- The accesses of a `POLL` that the schedule made `extra` reads longer than one (R81). -/
def pollReads (r : Reg) (extra : Nat) : List HostAccess :=
  List.replicate (extra + 1) (rdReg r)

/-- The pseudo-instructions of R82. -/
inductive Pseudo where
  | decodeClassic
  | decodeEg53ma4
  | decodeSe3
  /-- `WAIT`, with the number of extra reads the schedule makes it take. -/
  | wait (extra : Nat)
  | clrwerr
  | enforceOn
  | enforceOff
  /-- `LOAD w0, w1, w2, w3, n`. -/
  | load (w0 w1 w2 w3 n : Word)
deriving DecidableEq, Repr

/-- The mask of STATUS that `WAIT` polls (R82). -/
def waitMask : Word := 0x00000003

/-- The masked value of STATUS that ends `WAIT`: BUSY = 0 and DONE = 1 (R82). -/
def waitValue : Word := 0x00000002

/-- The expansion of a pseudo-instruction (R82). -/
def expand : Pseudo → List HostAccess
  | .decodeClassic => [wrReg .cmd 0x00000000]
  | .decodeEg53ma4 => [wrReg .cmd 0x00000001]
  | .decodeSe3 => [wrReg .cmd 0x00000002]
  | .wait extra => pollReads .status extra
  | .clrwerr => [wrReg .status 0x00000004]
  | .enforceOn => [wrReg .ctrl 0x00000001]
  | .enforceOff => [wrReg .ctrl 0x00000000]
  | .load w0 w1 w2 w3 n =>
    [wrReg (.frame 0) w0, wrReg (.frame 1) w1, wrReg (.frame 2) w2, wrReg (.frame 3) w3, wrReg .len n]

/-- The state with a list of accesses placed first in its schedule. -/
def withAccesses (as : List HostAccess) (s : State) : State :=
  withSchedule (as.map (HostAccess.event (tfdBase s)) ++ s.schedule) s

end Sys2Proof.Machine
end

