-- ==== Sys2Proof/Safety.lean ====
section
/-! DEFINITION. The terms claims are stated in: fields of the frame by bit position (R75 to R77), what the
result registers may hold together (R29 to R37), and the invariant every step keeps. -/

namespace Sys2Proof.Machine

/-- The `n` frame bits from position `lo` on, the lowest position most significant (section 2 of
30_encoding.md). -/
def frameField (f : Frame) (lo : Nat) : (n : Nat) → BitVec n
  | 0 => 0#0
  | n + 1 => (frameField f lo n).concat (frameBit f (lo + n))

/-- The XOR of the `n` frame bits from position `lo` on. -/
def frameParity (f : Frame) (lo : Nat) : Nat → Bool
  | 0 => false
  | n + 1 => frameParity f lo n ^^ frameBit f (lo + n)

/-- The `n` bytes of the frame from bit position `lo` on. -/
def frameBytes (f : Frame) (lo n : Nat) : List Byte :=
  (List.range n).map fun j => frameField f (lo + 8 * j) 8

/-- Two frames have the same bits at positions `lo` to `hi`, both included. -/
def sameBits (f g : Frame) (lo hi : Nat) : Prop :=
  ∀ i, lo ≤ i → i ≤ hi → frameBit f i = frameBit g i

/-- A status bit as an 8-bit code: the value in bit 0, bits 7:1 = 0 (R36). -/
def bitCode (b : Bool) : Byte :=
  (BitVec.ofBool b).setWidth 8

/-- The result registers of a failure without extraction: RESULT as given, every other one 0 (R104,
R212). -/
def resultOnly (r : Word) : Results :=
  { result := r, sensorId := 0, flags := 0, pressureRaw := 0, pressure := 0, temperature := 0, check := 0,
    payload0 := 0, payload1 := 0, payload2 := 0 }

/-- The reading registers hold no reading (R32, R33, R34). -/
abbrev Results.noReading (r : Results) : Prop :=
  r.sensorId = 0 ∧ r.flags = 0 ∧ r.pressureRaw = 0 ∧ r.pressure = 0 ∧ r.temperature = 0

/-- The diagnostics are empty (R36, R37). -/
abbrev Results.noDiagnostics (r : Results) : Prop :=
  r.check = 0 ∧ r.payload0 = 0 ∧ r.payload1 = 0 ∧ r.payload2 = 0

/-- What RESULT's own fields hold together: its reserved bits are 0 and its CODE is one of five (R29); the
reset word alone has CODE 0 (R29, R41); CHK_VALID says that the integrity step was reached, which it is in
an OK and an IntegrityFailure outcome (R35); an OK outcome names the model, integrity, pressure unit and
temperature unit of its variant, every other outcome NONE (R30, R31); BadVariant is variant 3's outcome and
its only one (R29, R104); PAR_ENF belongs to SE3 and, with CHK_PASS, to a reached integrity step (R35); and
a reached one is an IntegrityFailure exactly when the code differed, for SE3 only with it enforced
(R211, R216). -/
abbrev resultWordLegal (r : Word) : Prop :=
  r &&& resultReservedMask = 0 ∧
  (resultCode r = 0 ∨ resultCode r = 1 ∨ resultCode r = 2 ∨ resultCode r = 3 ∨ resultCode r = 4) ∧
  (resultCode r = 0 → r = 0x00333300) ∧
  (resultChkValid r = true ↔ resultCode r = 1 ∨ resultCode r = 3) ∧
  (resultCode r = 1 →
    resultModel r = resultVar r ∧ resultInteg r = resultVar r ∧
      resultPunit r = (if resultVar r = 2 then 1 else 0) ∧
      resultTunit r = (if resultVar r = 0 then 0 else if resultVar r = 1 then 1 else 3)) ∧
  (resultCode r ≠ 1 →
    resultModel r = 3 ∧ resultInteg r = 3 ∧ resultPunit r = 3 ∧ resultTunit r = 3) ∧
  (resultCode r = 4 ↔ resultVar r = 3) ∧
  (resultParEnf r = true → resultVar r = 2 ∧ resultChkValid r = true) ∧
  (resultChkPass r = true → resultChkValid r = true) ∧
  (resultChkValid r = true →
    (resultCode r = 3 ↔ resultChkPass r = false ∧ (resultVar r = 2 → resultParEnf r = true)))

/-- Which result registers are empty, and when (R32 to R37, R41): a CODE of NONE is the reset state of all
of them; no reading without CODE = OK; no diagnostics without CHK_VALID; CHK_PASS is CALC = RECV. -/
abbrev Results.emptyWhereDue (r : Results) : Prop :=
  (resultCode r.result = 0 → r = Results.reset) ∧
  (resultCode r.result ≠ 1 → r.noReading) ∧
  (resultChkValid r.result = false → r.noDiagnostics) ∧
  (resultChkValid r.result = true →
    (resultChkPass r.result = true ↔ checkCalc r.check = checkRecv r.check))

/-- The widths of the result registers' significant fields: SENSOR_ID has 28 bits for Classic and 24 else,
FLAGS 8 bits for Classic, 3 for SE3 and 32 for EG53MA4 (R32), PRESSURE_RAW 8 (R33), CHECK 16 (R36); the
payload has 10 bytes for EG53MA4, 8 for Classic and 36 bits for SE3 (R37). -/
abbrev Results.withinWidths (r : Results) : Prop :=
  r.sensorId.toNat < 2 ^ 28 ∧ (resultVar r.result ≠ 0 → r.sensorId.toNat < 2 ^ 24) ∧
  (resultVar r.result = 0 → r.flags.toNat < 2 ^ 8) ∧ (resultVar r.result = 2 → r.flags.toNat < 2 ^ 3) ∧
  r.pressureRaw.toNat < 2 ^ 8 ∧ r.check.toNat < 2 ^ 16 ∧
  r.payload2.extractLsb' 0 16 = 0 ∧ (resultVar r.result ≠ 1 → r.payload2 = 0) ∧
  (resultVar r.result = 2 → r.payload1.extractLsb' 0 28 = 0)

/-- PRESSURE and TEMPERATURE by their units (R31, R33, R34). -/
abbrev Results.inUnits (r : Results) : Prop :=
  (resultPunit r.result = 0 → r.pressure.toNat = 25 * r.pressureRaw.toNat) ∧
  (resultPunit r.result = 1 → r.pressure.toNat = 2 * r.pressureRaw.toNat + 1) ∧
  (resultTunit r.result = 0 → -50 ≤ r.temperature.toInt ∧ r.temperature.toInt ≤ 205) ∧
  (resultTunit r.result = 1 → 0 ≤ r.temperature.toInt ∧ r.temperature.toInt ≤ 255) ∧
  (resultTunit r.result = 3 → r.temperature = 0)

/-- The ten payload bytes that PAYLOAD0 to PAYLOAD2 report (R37). -/
def Results.payloadBytes (r : Results) : List Byte :=
  [r.payload0.extractLsb' 24 8, r.payload0.extractLsb' 16 8, r.payload0.extractLsb' 8 8,
    r.payload0.extractLsb' 0 8, r.payload1.extractLsb' 24 8, r.payload1.extractLsb' 16 8,
    r.payload1.extractLsb' 8 8, r.payload1.extractLsb' 0 8, r.payload2.extractLsb' 24 8,
    r.payload2.extractLsb' 16 8]

/-- Where the integrity step was reached, CHECK holds the code computed over the reported payload and the
code received in it (R36). -/
abbrev Results.checkOfPayload (r : Results) : Prop :=
  resultChkValid r.result = true →
    (resultVar r.result = 0 →
      checkCalc r.check = crc8 0x07 0xF0 (r.payloadBytes.take 7) ∧
        checkRecv r.check = payloadByte r.payloadBytes 7) ∧
    (resultVar r.result = 1 →
      checkCalc r.check = sum8 (r.payloadBytes.take 9) ∧
        checkRecv r.check = payloadByte r.payloadBytes 9) ∧
    (resultVar r.result = 2 →
      checkCalc r.check =
          bitCode (xpar (r.payloadBytes.take 4 ++ [payloadByte r.payloadBytes 4 &&& 0xE0])) ∧
        checkRecv r.check = bitCode ((payloadByte r.payloadBytes 4).getLsbD 4))

/-- The clauses on the result registers: RESULT's fields together (R29 to R31, R35), what is empty when
(R32 to R37), the widths by variant (R32, R33, R36, R37), the units (R31, R33, R34) and CHECK by the
payload (R36). -/
abbrev Results.Legal (r : Results) : Prop :=
  resultWordLegal r.result ∧ r.emptyWhereDue ∧ r.withinWidths ∧ r.inUnits ∧ r.checkOfPayload

/-- The invariant of the machine: the result registers are legal; BUSY and DONE are never both 1 (R25);
BUSY = DONE = 0 holds only after reset, before the first command, with the results, the latch and WERR as
reset left them (R25, R26, R41); DONE = 1 means that the result registers hold the outcome of the most
recently accepted command, so RESULT.VAR is its variant (R24, R25, R29). -/
abbrev State.Inv (s : State) : Prop :=
  s.results.Legal ∧
  ¬(s.busy = true ∧ s.done = true) ∧
  (s.busy = false → s.done = false →
    s.results = Results.reset ∧ s.pendingVar = 0 ∧ s.werr = false) ∧
  (s.done = true → resultCode s.results.result ≠ 0 ∧ resultVar s.results.result = s.pendingVar)

/-- `k` steps of the machine (the host's `Core.run`). -/
def runSteps (k : Nat) (s : State) : Host.Outcome State Fault Refusal :=
  Sys2Proof.core.run k s

/-- The frame lengths a variant accepts (R99). -/
def acceptedLength (v : VariantCode) (len : FrameLen) : Bool :=
  (v == 0 && len == 68) || (v == 1 && len == 120) || (v == 2 && (len == 52 || len == 53))

/-- The engine has its turn at the next step: it is scheduled first, or nothing is scheduled (R90,
R95). -/
abbrev engineNext (s : State) : Prop :=
  s.schedule = [] ∨ s.schedule.head? = some .engine

/-- The events of commands run one after another: for each word, its write to CMD and then the engine's
turn (R92, R93). -/
def commandEvents (base : Nat) (words : List Word) : List Event :=
  words.flatMap fun v => [.hostWrite (base + 0x04) 4 v, .engine]

/-- Two frames differ at position `i` and nowhere else. -/
def flipsBit (f g : Frame) (i : Nat) : Prop :=
  ∀ k, frameBit g k = (frameBit f k ^^ decide (k = i))

/-- TFD's own state, the model's own fields left out: two states agree in every register and in the
hidden latch (R21, R39, R40). -/
abbrev sameRegisters (s t : State) : Prop :=
  t.se3ParityEn = s.se3ParityEn ∧ t.busy = s.busy ∧ t.done = s.done ∧ t.werr = s.werr ∧
  t.lenBits = s.lenBits ∧ t.frame = s.frame ∧ t.results = s.results ∧ t.pendingVar = s.pendingVar

end Sys2Proof.Machine
end

