-- ==== Sys2Proof/Certificates/Slice0/Obligations.lean ====
section
/-! DEFINITION. What is claimed of the model, from the spec's numbered rules. Each docstring names the
rules it formalises; where a claim rests on a choice of the model, it names the log entry. -/

open Sys2Proof Sys2Proof.Machine

/-! ### The command word -/

/-- R71, R73: command words written out from the table decode to their command. -/
def Obligations.CommandWordsDecodeAsTheTableSays : Prop :=
  decodeWord 0x00000000 = .decodeClassic ∧ decodeWord 0x00000001 = .decodeEg53ma4 ∧
  decodeWord 0x00000002 = .decodeSe3 ∧ decodeWord 0x00000003 = .reservedVariant ∧
  decodeWord 0x00000010 = .decodeClassic ∧ decodeWord 0x80000001 = .decodeEg53ma4 ∧
  decodeWord 0x7FFFFFFE = .decodeSe3 ∧ decodeWord 0xFFFFFFFF = .reservedVariant ∧
  decodeTableWord 32 0x00000002 = some .decodeSe3

/-- Decode and encode agree, over all commands, all values of the ignored bits and all canonical words
(R70 to R73, R80); a cut-off word is rejected. The byte order is log entry 6's. -/
def Obligations.DecodeAndEncodeAgree : Prop :=
  (∀ (i : Instr) (ignored : BitVec 30) (rest : List Byte),
    decode (wordBytes (encodeWith ignored i) ++ rest) = .ok (i, rest)) ∧
  (∀ (i : Instr) (rest : List Byte),
    canonicalCommandWord (encodeWord i) = true ∧ decode (encode i ++ rest) = .ok (i, rest)) ∧
  (∀ (w : Word) (rest : List Byte),
    decode (wordBytes w ++ rest) = .ok (decodeWord w, rest) ∧
    encodeWith (w.extractLsb' 2 30) (decodeWord w) = w ∧
    (canonicalCommandWord w = true → encode (decodeWord w) = wordBytes w)) ∧
  (∀ bytes : List Byte, bytes.length < 4 → decode bytes = .error .truncatedWord)

/-- The rows of spec/opcode_table.json: a word matches the row of exactly the command it decodes to
(R71, R72). -/
def Obligations.TableRowMatchesExactlyItsCommand : Prop :=
  ∀ (w : Word) (i : Instr), w &&& rowMask = rowMatch i ↔ decodeWord w = i

/-- R73: bits 31:2 of the command word are ignored, by the decoder and by the write to CMD. -/
def Obligations.WordsAgreeingInVariantAreOneCommand : Prop :=
  ∀ w w' : Word, w.extractLsb' 0 2 = w'.extractLsb' 0 2 →
    decodeWord w = decodeWord w' ∧
    ∀ s : State, hostWrite (tfdBase s + 0x04) 4 w s = hostWrite (tfdBase s + 0x04) 4 w' s

/-! ### Commands: acceptance, completion, the step -/

/-- R92: a write to CMD with BUSY = 0 latches bits 1:0, sets BUSY, clears DONE and changes nothing
else; with BUSY = 1 it is not an acceptance. -/
def Obligations.AcceptanceLatchesVariantAndSetsBusy : Prop :=
  ∀ (s : State) (v : Word) (rest : List Event),
    s.schedule = .hostWrite (tfdBase s + 0x04) 4 v :: rest →
    (s.busy = false → step s = .next { s with
      pendingVar := v.extractLsb' 0 2, busy := true, done := false, response := .done, schedule := rest }) ∧
    (s.busy = true → step s = .next { s with werr := true, response := .done, schedule := rest })

/-- A step runs the decoded command: where the latched command word decodes to `i` and the engine has
its turn, the step is `exec i`, with only the schedule's first event taken before it (R93, log entries 2
and 5). -/
def Obligations.StepRunsTheCommandInFlight : Prop :=
  ∀ (s : State) (i : Instr), s.busy = true → decode (wordBytes (latchedWord s)) = .ok (i, []) →
    (s.schedule = [] → step s = exec i s) ∧
    (∀ rest, s.schedule = .engine :: rest → step s = exec i { s with schedule := rest })

/-- A command word placed by `withFetchWord` is the command the very next step runs (log entry 5). -/
def Obligations.PlacedCommandRunsNext : Prop :=
  ∀ (s : State) (w : Nat),
    step (s.withFetchWord 32 w) = exec (decodeWord (BitVec.ofNat 32 w))
      { s with pendingVar := (BitVec.ofNat 32 w).extractLsb' 0 2, busy := true, done := false }

/-- R93: the completion step commits `Decode` of the registers as they stand, clears BUSY and sets
DONE. -/
def Obligations.CompletionCommitsDecodeOfTheRegisters : Prop :=
  ∀ s : State, s.busy = true → engineNext s →
    step s = .next { s with
      results := commit (decodeFrame s.pendingVar s.lenBits s.frame s.se3ParityEn)
      busy := false, done := true, schedule := s.schedule.tail }

/-- The engine's turn with BUSY = 0 changes no register (R90, log entry 2). -/
def Obligations.EngineIdlesWithoutACommand : Prop :=
  ∀ s : State, s.busy = false → engineNext s → step s = .next { s with schedule := s.schedule.tail }

/-- R72: any word written to CMD with BUSY = 0 is accepted, and the engine's turn after it commits the
outcome that bits 1:0 select. -/
def Obligations.EveryWordWrittenToCmdIsDecodedByItsVariant : Prop :=
  ∀ (s : State) (v : Word) (rest : List Event), s.busy = false →
    s.schedule = .hostWrite (tfdBase s + 0x04) 4 v :: .engine :: rest →
    runSteps 2 s = .next { s with
      pendingVar := v.extractLsb' 0 2
      results := commit (decodeFrame (v.extractLsb' 0 2) s.lenBits s.frame s.se3ParityEn)
      busy := false, done := true, response := .done, schedule := rest } ∧
    runSteps 2 s = exec (decodeWord v) { s with
      pendingVar := v.extractLsb' 0 2, busy := true, done := false, response := .done, schedule := rest }

/-! ### The four commands, each on every state

`exec` is a command's completion step (log entry 5); a step runs it only with BUSY = 1, and
`StepRunsTheCommandInFlight` carries what is stated of it here to a step. -/

/-- R75, R151 to R157: DECODE_CLASSIC, on every state, in every one of its three outcomes, with every
field by its frame bits; everything but the result registers, BUSY and DONE is unchanged. The CRC is
R130's, whose form the spec marks as its own reading (D12, log entry 8). -/
def Obligations.DecodeClassicOutcome : Prop :=
  ∀ s : State,
    let f := s.frame
    let calcCode := crc8 0x07 0xF0 (frameBytes f 4 7)
    let recvCode := frameField f 60 8
    exec .decodeClassic s = .next { s with
      busy := false, done := true
      results :=
        if s.lenBits ≠ 68 then resultOnly 0x00333302
        else if calcCode ≠ recvCode then
          { resultOnly 0x01333303 with
            check := zext32 (recvCode ++ calcCode)
            payload0 := frameField f 4 32, payload1 := frameField f 36 32, payload2 := 0 }
        else
          { result := 0x03000001
            flags := zext32 (frameField f 8 8)
            sensorId := zext32 (frameField f 16 28)
            pressureRaw := zext32 (frameField f 44 8)
            pressure := 25 * zext32 (frameField f 44 8)
            temperature := zext32 (frameField f 52 8) - 50
            check := zext32 (recvCode ++ calcCode)
            payload0 := frameField f 4 32, payload1 := frameField f 36 32, payload2 := 0 } }

/-- R76, R171 to R177: DECODE_EG53MA4, on every state, in every one of its three outcomes, with every
field by its frame bits; everything but the result registers, BUSY and DONE is unchanged. That the
temperature is unsigned is the spec's own reading (D17, log entry 8). -/
def Obligations.DecodeEg53ma4Outcome : Prop :=
  ∀ s : State,
    let f := s.frame
    let calcCode := BitVec.ofNat 8 (((frameBytes f 40 9).map BitVec.toNat).sum % 256)
    let recvCode := frameField f 112 8
    exec .decodeEg53ma4 s = .next { s with
      busy := false, done := true
      results :=
        if s.lenBits ≠ 120 then resultOnly 0x00333312
        else if calcCode ≠ recvCode then
          { resultOnly 0x01333313 with
            check := zext32 (recvCode ++ calcCode)
            payload0 := frameField f 40 32, payload1 := frameField f 72 32
            payload2 := frameField f 104 16 ++ (0 : BitVec 16) }
        else
          { result := 0x03101111
            flags := frameField f 40 32
            sensorId := zext32 (frameField f 72 24)
            pressureRaw := zext32 (frameField f 96 8)
            pressure := 25 * zext32 (frameField f 96 8)
            temperature := zext32 (frameField f 104 8)
            check := zext32 (recvCode ++ calcCode)
            payload0 := frameField f 40 32, payload1 := frameField f 72 32
            payload2 := frameField f 104 16 ++ (0 : BitVec 16) } }

/-- R77, R191 to R195, R197 to R200: DECODE_SE3, on every state, in every one of its outcomes, with
every field by its frame bits; everything but the result registers, BUSY and DONE is unchanged. The bit
numbering, the extracted count and the group order are the spec's own readings (D13, D15, D16, log
entry 8). -/
def Obligations.DecodeSe3Outcome : Prop :=
  ∀ s : State,
    let f := s.frame
    let calcBit := frameParity f 16 35
    let recvBit := frameBit f 51
    let check := zext32 (bitCode recvBit ++ bitCode calcBit)
    exec .decodeSe3 s = .next { s with
      busy := false, done := true
      results :=
        if s.lenBits ≠ 52 ∧ s.lenBits ≠ 53 then resultOnly 0x00333322
        else if calcBit ≠ recvBit ∧ s.se3ParityEn = true then
          { resultOnly 0x05333323 with
            check := check, payload0 := frameField f 16 32
            payload1 := frameField f 48 4 ++ (0 : BitVec 28), payload2 := 0 }
        else
          { result := if calcBit ≠ recvBit then 0x01312221
              else if s.se3ParityEn = true then 0x07312221 else 0x03312221
            flags := zext32 (frameField f 16 3)
            sensorId := zext32 (frameField f 19 24)
            pressureRaw := zext32 (frameField f 43 8)
            pressure := 2 * zext32 (frameField f 43 8) + 1
            temperature := 0
            check := check, payload0 := frameField f 16 32
            payload1 := frameField f 48 4 ++ (0 : BitVec 28), payload2 := 0 } }

/-- R104: the reserved command, on every state: BadVariant, whatever LEN, FRAME and CTRL hold. -/
def Obligations.ReservedCommandIsBadVariant : Prop :=
  (∀ w : Word, w.extractLsb' 0 2 = 3 → decodeWord w = .reservedVariant) ∧
  ∀ s : State, exec .reservedVariant s = .next { s with
    busy := false, done := true, results := resultOnly 0x00333334 }

/-- R212: a length outside the variant's set gives FrameLengthMismatch, every other result register 0,
LEN and FRAME unchanged. -/
def Obligations.WrongLengthIsFrameLengthMismatch : Prop :=
  ∀ s : State,
    (s.lenBits ≠ 68 → exec .decodeClassic s = .next { s with
      busy := false, done := true, results := resultOnly 0x00333302 }) ∧
    (s.lenBits ≠ 120 → exec .decodeEg53ma4 s = .next { s with
      busy := false, done := true, results := resultOnly 0x00333312 }) ∧
    (s.lenBits ≠ 52 → s.lenBits ≠ 53 → exec .decodeSe3 s = .next { s with
      busy := false, done := true, results := resultOnly 0x00333322 })

/-- What every command leaves unchanged when it completes: CTRL, LEN, FRAME, the latch, WERR, and every
word of the window but STATUS and the result registers; STATUS then reads BUSY = 0, DONE = 1 (R42,
R93, R94). -/
def Obligations.CompletionFrame : Prop :=
  ∀ (i : Instr) (s t : State), exec i s = .next t →
    t.se3ParityEn = s.se3ParityEn ∧ t.lenBits = s.lenBits ∧ t.frame = s.frame ∧
    t.pendingVar = s.pendingVar ∧ t.werr = s.werr ∧
    t.tfdPage = s.tfdPage ∧ t.response = s.response ∧ t.schedule = s.schedule ∧
    (∀ off : BitVec 8, off &&& 0xFC ≠ 0x08 → (off < 0x20 ∨ 0x48 ≤ off) →
      readWindow t off = readWindow s off) ∧
    readWindow t 0x08 = if s.werr = true then 0x00000006 else 0x00000002

/-- R216: the first failing condition decides: BadVariant, then the length, each with nothing extracted,
then the integrity code (for SE3 only when it is enforced). -/
def Obligations.FirstFailureDecides : Prop :=
  ∀ (v : VariantCode) (len : FrameLen) (f : Frame) (enf : Bool),
    let o := decodeFrame v len f enf
    (v = 3 → o = fail .badVariant v) ∧
    (v ≠ 3 → acceptedLength v len = false → o = fail .frameLengthMismatch v) ∧
    (v ≠ 3 → acceptedLength v len = true → o.calcCode ≠ o.recvCode → (v = 2 → enf = true) →
      o.code = .integrityFailure) ∧
    (v ≠ 3 → acceptedLength v len = true → (o.calcCode = o.recvCode ∨ (v = 2 ∧ enf = false)) →
      o.code = .ok)

/-- R196: a failing SE3 parity rejects the frame exactly when CTRL.SE3_PARITY_EN = 1; unenforced, it is
an OK outcome with CHK_PASS = 0; a passing parity is OK with CHK_PASS = 1 either way. -/
def Obligations.ParityIsEnforcedByCtrl : Prop :=
  ∀ s : State, s.lenBits = 52 ∨ s.lenBits = 53 →
    ∃ t, exec .decodeSe3 s = .next t ∧
      (frameParity s.frame 16 35 ≠ frameBit s.frame 51 → s.se3ParityEn = true →
        resultCode t.results.result = 3) ∧
      (frameParity s.frame 16 35 ≠ frameBit s.frame 51 → s.se3ParityEn = false →
        resultCode t.results.result = 1 ∧ resultChkPass t.results.result = false) ∧
      (frameParity s.frame 16 35 = frameBit s.frame 51 →
        resultCode t.results.result = 1 ∧ resultChkPass t.results.result = true)

/-- R101: equal inputs commit equal outcomes, whatever else the two states hold. -/
def Obligations.EqualInputsCommitEqualOutcomes : Prop :=
  ∀ s s' : State, s.busy = true → s'.busy = true → engineNext s → engineNext s' →
    s.pendingVar = s'.pendingVar → s.se3ParityEn = s'.se3ParityEn → s.lenBits = s'.lenBits →
    s.frame = s'.frame →
    ∃ t t', step s = .next t ∧ step s' = .next t' ∧ t.results = t'.results

/-- R103: after any commands run one after another, each accepted and completed, a command commits the same
outcome as on its own, and as on its own with any other results in the registers. -/
def Obligations.OutcomesDoNotDependOnOrder : Prop :=
  ∀ (s : State) (earlier : List Word) (v : Word) (r : Results) (rest : List Event), s.busy = false →
    ∃ t u,
      runSteps (2 * earlier.length + 2)
        { s with schedule := commandEvents (tfdBase s) (earlier ++ [v]) ++ rest } = .next t ∧
      runSteps 2 { s with results := r, schedule := commandEvents (tfdBase s) [v] ++ rest } = .next u ∧
      t.results = u.results

/-- R102: the discarded leading bits and the bits past the extracted range never affect an outcome. -/
def Obligations.DiscardedAndTrailingBitsAreNotRead : Prop :=
  ∀ (f g : Frame) (len : FrameLen) (enf : Bool),
    (sameBits f g 4 67 → decodeClassic len f = decodeClassic len g) ∧
    (sameBits f g 40 119 → decodeEg53ma4 len f = decodeEg53ma4 len g) ∧
    (sameBits f g 16 51 → decodeSe3 len f enf = decodeSe3 len g enf)

/-- R202: a 52-bit and a 53-bit SE3 frame that agree in bits 0 to 51 give equal outcomes. -/
def Obligations.Se3LengthsGiveEqualOutcomes : Prop :=
  ∀ (f g : Frame) (enf : Bool), sameBits f g 0 51 →
    decodeSe3 52 f enf = decodeSe3 53 g enf ∧
    commit (decodeSe3 52 f enf) = commit (decodeSe3 53 g enf)

/-! ### The extractor and the integrity validators -/

/-- R121: bit by bit, what the extractor returns. -/
def Obligations.ExtractIsLeftJustified : Prop :=
  ∀ (f : Frame) (len start count : Nat) (h : extractPre len start count),
    (extract f len start count h).length = (count + 7) / 8 ∧
    ∀ j k, j < (count + 7) / 8 → k < 8 →
      (payloadByte (extract f len start count h) j).getLsbD (7 - k) =
        if 8 * j + k < count then frameBit f (start + (8 * j + k)) else false

/-- R122: the extractor exposed on its own refuses a call past the frame's length, and answers one within
it; each of TFD's own calls meets the precondition (R123). -/
def Obligations.ExtractRefusesPastTheFrame : Prop :=
  (∀ (f : Frame) (len start count : Nat), len < start + count →
    extractRefusing f len start count = .error .extractPrecondition) ∧
  (∀ (f : Frame) (len start count : Nat), start + count ≤ len → len ≤ 128 →
    ∃ h, extractRefusing f len start count = .ok (extract f len start count h)) ∧
  extractPre 68 4 64 ∧ extractPre 120 40 80 ∧ extractPre 52 16 36 ∧ extractPre 53 16 36

/-- R133: values of CRC8 with polynomial 0x07 and initial value 0xF0. -/
def Obligations.CrcCornerValues : Prop :=
  crc8 0x07 0xF0 [] = 0xF0 ∧ crc8 0x07 0xF0 [0xF0] = 0x00 ∧
  crc8 0x07 0xF0 [0, 0, 0, 0, 0, 0, 0] = 0xBD ∧
  crc8 0x07 0xF0 [0xFF, 0xFF, 0xFF, 0xFF, 0xFF, 0xFF, 0xFF] = 0xB1 ∧
  crc8 0x07 0xF0 [0x70, 0x3A, 0x38, 0xB2, 0x00, 0x49, 0x49] = 0xD7

/-- The CRC of a message followed by its own CRC is 0 (a consequence of R130: no final XOR, D12). -/
def Obligations.CrcOfMessageWithItsCrcIsZero : Prop :=
  ∀ (poly start : Byte) (bytes : List Byte),
    crc8 poly start (bytes ++ [crc8 poly start bytes]) = 0

/-- R134: SUM8 is the sum modulo 256, and equals 8-bit wrapping addition. -/
def Obligations.ChecksumIsWrappingAddition : Prop :=
  ∀ bytes : List Byte,
    (sum8 bytes).toNat = (bytes.map BitVec.toNat).sum % 256 ∧
    sum8 bytes = bytes.foldl (fun acc b => acc + b) 0

/-- R137: XPAR is the number of 1 bits mod 2; a zero byte does not change it (R139). -/
def Obligations.ParityCountsOnes : Prop :=
  ∀ bytes : List Byte,
    (xpar bytes).toNat = (bytes.map fun b => (List.range 8).countP b.getLsbD).sum % 2 ∧
    xpar (bytes ++ [0]) = xpar bytes

/-- W1, R132: of a Classic frame that decodes, a copy with another CRC byte is always IntegrityFailure,
never another reading. -/
def Obligations.AnotherCrcByteIsRejected : Prop :=
  ∀ (s t : State) (g : Frame), s.lenBits = 68 →
    exec .decodeClassic s = .next t → resultCode t.results.result = 1 →
    sameBits s.frame g 4 59 → frameField g 60 8 ≠ frameField s.frame 60 8 →
    ∃ u, exec .decodeClassic { s with frame := g } = .next u ∧
      u.results.result = 0x01333303 ∧ u.results.noReading

/-- W5, R136: adding any nonzero amount to a passing EG53MA4 checksum byte gives IntegrityFailure. -/
def Obligations.MutatedChecksumIsRejected : Prop :=
  ∀ (s t : State) (g : Frame) (d : Byte), s.lenBits = 120 →
    exec .decodeEg53ma4 s = .next t → resultCode t.results.result = 1 →
    sameBits s.frame g 40 111 → d ≠ 0 → frameField g 112 8 = frameField s.frame 112 8 + d →
    ∃ u, exec .decodeEg53ma4 { s with frame := g } = .next u ∧
      u.results.result = 0x01333313 ∧ checkRecv u.results.check = frameField s.frame 112 8 + d ∧
      u.results.noReading

/-- R140: flipping one of the 35 data bits or the parity bit turns the SE3 verdict over; flipping two
leaves it. -/
def Obligations.OneFlippedBitTurnsTheParityVerdict : Prop :=
  ∀ (s : State) (g : Frame) (i : Nat), s.lenBits = 52 ∨ s.lenBits = 53 → 16 ≤ i → i ≤ 51 →
    flipsBit s.frame g i →
    ∃ t u, exec .decodeSe3 s = .next t ∧ exec .decodeSe3 { s with frame := g } = .next u ∧
      resultChkPass u.results.result = !resultChkPass t.results.result ∧
      ∀ (h : Frame) (j : Nat), 16 ≤ j → j ≤ 51 → flipsBit g h j →
        ∃ w, exec .decodeSe3 { s with frame := h } = .next w ∧
          resultChkPass w.results.result = resultChkPass t.results.result

/-! ### Host accesses -/

/-- R53: an admitted read answers the register's value and changes nothing else. -/
def Obligations.ReadAnswersTheRegister : Prop :=
  ∀ (s : State) (off : BitVec 8) (rest : List Event), off &&& 3 = 0 →
    s.schedule = .hostRead (tfdBase s + off.toNat) 4 :: rest →
    step s = .next { s with response := .data (readWindow s off), schedule := rest }

/-- R21, R22 to R38: what every offset of the window reads as. -/
def Obligations.WindowReadsAsTheRegisterMap : Prop :=
  ∀ s : State,
    readWindow s 0x00 = (if s.se3ParityEn = true then 1 else 0) ∧
    readWindow s 0x04 = 0 ∧
    readWindow s 0x08 = (if s.busy = true then 1 else 0) + (if s.done = true then 2 else 0) +
      (if s.werr = true then 4 else 0) ∧
    (readWindow s 0x0C).toNat = s.lenBits.toNat ∧
    readWindow s 0x10 = s.frame.w0 ∧ readWindow s 0x14 = s.frame.w1 ∧
    readWindow s 0x18 = s.frame.w2 ∧ readWindow s 0x1C = s.frame.w3 ∧
    readWindow s 0x20 = s.results.result ∧ readWindow s 0x24 = s.results.sensorId ∧
    readWindow s 0x28 = s.results.flags ∧ readWindow s 0x2C = s.results.pressureRaw ∧
    readWindow s 0x30 = s.results.pressure ∧ readWindow s 0x34 = s.results.temperature ∧
    readWindow s 0x38 = s.results.check ∧ readWindow s 0x3C = s.results.payload0 ∧
    readWindow s 0x40 = s.results.payload1 ∧ readWindow s 0x44 = s.results.payload2 ∧
    ∀ off : BitVec 8, 0x48 ≤ off → readWindow s off = 0

/-- R54: exactly what a write of each offset does, and that an admitted write is that. -/
def Obligations.WriteHasExactlyItsEffect : Prop :=
  (∀ (s : State) (off : BitVec 8) (v : Word) (rest : List Event), off &&& 3 = 0 →
    s.schedule = .hostWrite (tfdBase s + off.toNat) 4 v :: rest →
    step s = .next { writeWindow off v s with response := .done, schedule := rest }) ∧
  ∀ (s : State) (v : Word),
    writeWindow 0x00 v s = (if s.busy = true then { s with werr := true }
      else { s with se3ParityEn := v.getLsbD 0 }) ∧
    writeWindow 0x04 v s = (if s.busy = true then { s with werr := true }
      else { s with pendingVar := v.extractLsb' 0 2, busy := true, done := false }) ∧
    writeWindow 0x08 v s = (if v.getLsbD 2 = true then { s with werr := false } else s) ∧
    writeWindow 0x0C v s = (if s.busy = true then { s with werr := true }
      else { s with lenBits := v.extractLsb' 0 16 }) ∧
    writeWindow 0x10 v s = (if s.busy = true then { s with werr := true }
      else { s with frame := { s.frame with w0 := v } }) ∧
    writeWindow 0x14 v s = (if s.busy = true then { s with werr := true }
      else { s with frame := { s.frame with w1 := v } }) ∧
    writeWindow 0x18 v s = (if s.busy = true then { s with werr := true }
      else { s with frame := { s.frame with w2 := v } }) ∧
    writeWindow 0x1C v s = (if s.busy = true then { s with werr := true }
      else { s with frame := { s.frame with w3 := v } }) ∧
    ∀ off : BitVec 8, 0x20 ≤ off → writeWindow off v s = s

/-- R245, R215: a command written while BUSY = 1 is not a command: it only sets WERR; the same holds of
CTRL, LEN and FRAME0 to FRAME3. -/
def Obligations.WritesWhileBusyOnlySetWerr : Prop :=
  ∀ (s : State) (off : BitVec 8) (v : Word) (rest : List Event), s.busy = true →
    off ∈ [0x00, 0x04, 0x0C, 0x10, 0x14, 0x18, 0x1C] →
    s.schedule = .hostWrite (tfdBase s + off.toNat) 4 v :: rest →
    step s = .next { s with werr := true, response := .done, schedule := rest }

/-- R52, R214: an access not 4 bytes wide or not 4-aligned answers BusError and changes no register. -/
def Obligations.RefusedAccessAnswersBusError : Prop :=
  ∀ (s : State) (addr n : Nat) (v : Word) (rest : List Event),
    tfdBase s ≤ addr → addr ≤ tfdBase s + 0xFF → (n ≠ 4 ∨ (addr - tfdBase s) % 4 ≠ 0) →
    (s.schedule = .hostRead addr n :: rest ∨ s.schedule = .hostWrite addr n v :: rest) →
    step s = .next { s with response := .busError addr, schedule := rest }

/-- R51: an access outside the window is not TFD's: no register changes and TFD answers nothing (the
form of the answer is log entry 4's). -/
def Obligations.AccessOutsideTheWindowIsNotSeen : Prop :=
  ∀ (s : State) (addr n : Nat) (v : Word) (rest : List Event),
    (addr < tfdBase s ∨ tfdBase s + 0xFF < addr) →
    (s.schedule = .hostRead addr n :: rest ∨ s.schedule = .hostWrite addr n v :: rest) →
    step s = .next { s with response := .none, schedule := rest }

/-- R26: WERR, once set, is cleared only by reset or by a write of 1 to its bit; and it is set only by a
write ignored for BUSY. -/
def Obligations.WerrIsSticky : Prop :=
  ∀ s t : State, step s = .next t →
    (s.werr = true → t.werr = false →
      (∃ rest, s.schedule = .reset :: rest) ∨
      ∃ v rest, s.schedule = .hostWrite (tfdBase s + 0x08) 4 v :: rest ∧ v.getLsbD 2 = true) ∧
    (s.werr = false → t.werr = true → s.busy = true ∧
      ∃ off v rest, s.schedule = .hostWrite (tfdBase s + BitVec.toNat off) 4 v :: rest ∧
        off ∈ [(0x00 : BitVec 8), 0x04, 0x0C, 0x10, 0x14, 0x18, 0x1C])

/-- R55: every write is idempotent except a write to CMD. -/
def Obligations.WritesOtherThanCmdAreIdempotent : Prop :=
  ∀ (s : State) (off : BitVec 8) (v : Word), off &&& 0xFC ≠ 0x04 →
    writeWindow off v (writeWindow off v s) = writeWindow off v s

/-- R81, R82: each pseudo-instruction is exactly the accesses of its line of the table, each access four
bytes wide at TFD_BASE plus its offset; the three command words decode to their commands; WAIT is any
number of reads of STATUS (log entry 13), which change no register, and ends exactly at BUSY = 0 and
DONE = 1; CLRWERR clears WERR; ENFORCE and LOAD, with BUSY = 0, leave the setting in CTRL, the frame and its
length in FRAME and LEN, and change no other register. -/
def Obligations.PseudoInstructionsStandForTheirAccesses : Prop :=
  (expand .decodeClassic = [.wr 0x04 0x00000000] ∧ decodeWord 0x00000000 = .decodeClassic) ∧
  (expand .decodeEg53ma4 = [.wr 0x04 0x00000001] ∧ decodeWord 0x00000001 = .decodeEg53ma4) ∧
  (expand .decodeSe3 = [.wr 0x04 0x00000002] ∧ decodeWord 0x00000002 = .decodeSe3) ∧
  (∀ extra : Nat, expand (.wait extra) = List.replicate (extra + 1) (.rd 0x08)) ∧
  expand .clrwerr = [.wr 0x08 0x00000004] ∧
  expand .enforceOn = [.wr 0x00 0x00000001] ∧ expand .enforceOff = [.wr 0x00 0x00000000] ∧
  (∀ w0 w1 w2 w3 n : Word, expand (.load w0 w1 w2 w3 n) =
    [.wr 0x10 w0, .wr 0x14 w1, .wr 0x18 w2, .wr 0x1C w3, .wr 0x0C n]) ∧
  (∀ (base : Nat) (off : BitVec 8) (v : Word),
    (HostAccess.wr off v).event base = .hostWrite (base + off.toNat) 4 v ∧
    (HostAccess.rd off).event base = .hostRead (base + off.toNat) 4) ∧
  (∀ (s : State) (extra : Nat), runSteps (extra + 1) (withAccesses (expand (.wait extra)) s) =
    .next { s with response := .data (readWindow s 0x08) }) ∧
  (∀ s : State, pollEnds waitMask waitValue (readWindow s 0x08) = (!s.busy && s.done)) ∧
  (∀ s : State, runSteps 1 (withAccesses (expand .clrwerr) s) =
    .next { s with werr := false, response := .done }) ∧
  (∀ s : State, s.busy = false →
    runSteps 1 (withAccesses (expand .enforceOn) s) =
      .next { s with se3ParityEn := true, response := .done } ∧
    runSteps 1 (withAccesses (expand .enforceOff) s) =
      .next { s with se3ParityEn := false, response := .done }) ∧
  ∀ (s : State) (w0 w1 w2 w3 n : Word), s.busy = false →
    runSteps 5 (withAccesses (expand (.load w0 w1 w2 w3 n)) s) = .next { s with
      frame := { w0 := w0, w1 := w1, w2 := w2, w3 := w3 }, lenBits := n.extractLsb' 0 16
      response := .done }

/-! ### What a step can change -/

/-- R54, R94, R21: a result register changes only at a completion step or at reset. -/
def Obligations.ResultsChangeOnlyAtCompletionOrReset : Prop :=
  ∀ s t : State, step s = .next t → t.results ≠ s.results →
    (s.busy = true ∧ engineNext s) ∨ s.schedule.head? = some .reset

/-- R243, R39: while BUSY = 1 the inputs of the decode in flight do not change at any step but reset. -/
def Obligations.InputsAreFrozenWhileBusy : Prop :=
  ∀ s t : State, s.busy = true → s.schedule.head? ≠ some .reset → step s = .next t →
    t.se3ParityEn = s.se3ParityEn ∧ t.lenBits = s.lenBits ∧ t.frame = s.frame ∧
    t.pendingVar = s.pendingVar

/-- R61: after BUSY = 0 and DONE = 1, the result registers keep the outcome over any number of steps
without a reset and without a write to CMD. -/
def Obligations.OutcomeStaysUntilTheNextCommand : Prop :=
  ∀ (k : Nat) (s : State), s.busy = false → s.done = true →
    (∀ e ∈ s.schedule, e ≠ .reset ∧ ∀ v, e ≠ .hostWrite (tfdBase s + 0x04) 4 v) →
    ∃ t, runSteps k s = .next t ∧ t.results = s.results ∧ t.busy = false ∧ t.done = true

/-- R64, R243, P4: a write to FRAME0 to FRAME3, LEN or CTRL that races with the completion commits the same
outcome either way. Before the completion it is ignored and sets WERR; after it, it is honoured. -/
def Obligations.RacingFrameWriteDoesNotChangeTheOutcome : Prop :=
  ∀ (s : State) (v : Word) (rest : List Event), s.busy = true →
    let committed : State := { s with
      results := commit (decodeFrame s.pendingVar s.lenBits s.frame s.se3ParityEn)
      busy := false, done := true, response := .done, schedule := rest }
    let writeFirst (off : Nat) : State :=
      { s with schedule := .hostWrite (tfdBase s + off) 4 v :: .engine :: rest }
    let writeLast (off : Nat) : State :=
      { s with schedule := .engine :: .hostWrite (tfdBase s + off) 4 v :: rest }
    (∀ off ∈ [0x00, 0x0C, 0x10, 0x14, 0x18, 0x1C],
      runSteps 2 (writeFirst off) = .next { committed with werr := true }) ∧
    runSteps 2 (writeLast 0x00) = .next { committed with se3ParityEn := v.getLsbD 0 } ∧
    runSteps 2 (writeLast 0x0C) = .next { committed with lenBits := v.extractLsb' 0 16 } ∧
    runSteps 2 (writeLast 0x10) = .next { committed with frame := { s.frame with w0 := v } } ∧
    runSteps 2 (writeLast 0x14) = .next { committed with frame := { s.frame with w1 := v } } ∧
    runSteps 2 (writeLast 0x18) = .next { committed with frame := { s.frame with w2 := v } } ∧
    runSteps 2 (writeLast 0x1C) = .next { committed with frame := { s.frame with w3 := v } }

/-- R240: the reset step, at any time, sets every register and the latch to its reset value; a decode in
flight is abandoned, with nothing committed. -/
def Obligations.ResetStepRestoresTheResetState : Prop :=
  ∀ (s : State) (rest : List Event), s.schedule = .reset :: rest →
    ∃ t, step s = .next t ∧ sameRegisters State.reset t ∧
      readWindow t 0x08 = 0x00000000 ∧ readWindow t 0x20 = 0x00333300 ∧
      ∀ off : BitVec 8, readWindow t off = readWindow State.reset off

/-- R41: what every register reads as right after reset, and the latch. -/
def Obligations.ResetValuesOfTheRegisters : Prop :=
  readWindow State.reset 0x00 = 0x00000001 ∧ readWindow State.reset 0x04 = 0 ∧
  readWindow State.reset 0x08 = 0x00000000 ∧ readWindow State.reset 0x0C = 0 ∧
  readWindow State.reset 0x20 = 0x00333300 ∧ State.reset.pendingVar = 0 ∧
  (∀ off : BitVec 8, 0x10 ≤ off → off < 0x20 → readWindow State.reset off = 0) ∧
  (∀ off : BitVec 8, 0x24 ≤ off → readWindow State.reset off = 0)

/-- R242: with nothing loaded after reset, a decode command of each of the three variants gives
FrameLengthMismatch. -/
def Obligations.DecodeRightAfterResetIsLengthMismatch : Prop :=
  ∀ v : Word, v.extractLsb' 0 2 ≠ 3 →
    ∃ t, runSteps 2 { State.reset with
        schedule := [.hostWrite (tfdBase State.reset + 0x04) 4 v, .engine] } = .next t ∧
      resultCode t.results.result = 2 ∧ resultVar t.results.result = v.extractLsb' 0 2 ∧
      t.busy = false ∧ t.done = true

/-- R210: TFD never traps: from every state a step answers a next state. The base address, which the
platform fixed, stays (R6, log entry 1). -/
def Obligations.EveryStepAnswersANextState : Prop :=
  ∀ s : State, ∃ t, step s = .next t ∧ tfdBase t = tfdBase s ∧ tfdBase s % 256 = 0

/-- The invariant of Safety.lean holds right after reset (R41). -/
def Obligations.InvariantHoldsAtReset : Prop :=
  State.reset.Inv

/-- Every step keeps `State.Inv` of Safety.lean, clause by clause: RESULT's fields together by variant and
outcome (R29 to R31, R35); the registers empty where an outcome has no reading or no diagnostics, within
their variant's widths, in their units, and CHECK the codes of the reported payload (R32 to R37); BUSY and
DONE never both 1, both 0 only before the first command after reset (R25); DONE = 1 means the results are
those of the variant last accepted (R24). -/
def Obligations.EveryStepKeepsTheInvariant : Prop :=
  ∀ s t : State, s.Inv → step s = .next t → t.Inv

/-- Progress and integrity of a command in flight (R95, R64, R243): in any schedule without a reset,
whatever the host does meanwhile, within one step more than the schedule is long the command completes,
and the outcome is that of the inputs as they stood when it was in flight. That an exhausted schedule
leaves the turn to the engine is log entry 2's. -/
def Obligations.CommandInFlightCompletesWithItsOwnInputs : Prop :=
  ∀ s : State, s.busy = true → Event.reset ∉ s.schedule →
    ∃ k t, k ≤ s.schedule.length + 1 ∧ runSteps k s = .next t ∧ t.busy = false ∧ t.done = true ∧
      t.results = commit (decodeFrame s.pendingVar s.lenBits s.frame s.se3ParityEn) ∧
      t.lenBits = s.lenBits ∧ t.frame = s.frame ∧ t.se3ParityEn = s.se3ParityEn ∧
      t.pendingVar = s.pendingVar
end

