-- ==== Sys2Proof/Laws/Frame.lean ====
section
/-! SUPPORT. The extractor in terms of frame fields: each extracted byte is the frame field at its place
(R121), and a frame field splits and slices by position. -/

namespace Sys2Proof.Machine

theorem frameField_getLsbD (f : Frame) (lo n i : Nat) :
    (frameField f lo n).getLsbD i = (decide (i < n) && frameBit f (lo + (n - 1 - i))) := by
  induction n generalizing i with
  | zero => simp [frameField]
  | succ n ih =>
    cases i with
    | zero => simp [frameField]
    | succ i =>
      simp only [frameField, BitVec.getLsbD_concat_succ, ih, Nat.add_lt_add_iff_right]
      congr 3
      omega

/-- Equal bits give equal fields. -/
theorem frameField_congr {f g : Frame} {lo n : Nat}
    (h : ∀ i, lo ≤ i → i < lo + n → frameBit f i = frameBit g i) :
    frameField f lo n = frameField g lo n := by
  induction n with
  | zero => rfl
  | succ n ih =>
    simp only [frameField, h (lo + n) (by omega) (by omega), ih fun i h₁ h₂ => h i h₁ (by omega)]

/-- A slice of a field is the field at the slice's place. -/
theorem frameField_extract (f : Frame) (lo n k m : Nat) (h : k + m ≤ n) :
    (frameField f lo n).extractLsb' k m = frameField f (lo + (n - k - m)) m := by
  apply BitVec.eq_of_getLsbD_eq
  intro i hi
  simp only [BitVec.getLsbD_extractLsb', frameField_getLsbD]
  have e : lo + (n - 1 - (k + i)) = lo + (n - k - m) + (m - 1 - i) := by omega
  simp [hi, e, show k + i < n by omega]

/-- Two adjacent fields, the earlier one more significant, are one field. -/
theorem frameField_append (f : Frame) (lo m n : Nat) :
    frameField f lo m ++ frameField f (lo + m) n = frameField f lo (m + n) := by
  apply BitVec.eq_of_getLsbD_eq
  intro i hi
  simp only [BitVec.getLsbD_append, frameField_getLsbD]
  split
  · rename_i h
    have e : lo + m + (n - 1 - i) = lo + (m + n - 1 - i) := by omega
    simp [h, e, hi]
  · rename_i h
    have e : lo + (m - 1 - (i - n)) = lo + (m + n - 1 - i) := by omega
    simp [e, hi, show i - n < m by omega]

/-- Bit `7 - k` of a packed byte is bit `k` in order (R121). -/
theorem packByte_getLsbD (bit : Nat → Bool) (k : Nat) (h : k < 8) :
    (packByte bit).getLsbD (7 - k) = bit k := by
  have : k = 0 ∨ k = 1 ∨ k = 2 ∨ k = 3 ∨ k = 4 ∨ k = 5 ∨ k = 6 ∨ k = 7 := by omega
  simp only [packByte, BitVec.getLsbD_append, BitVec.getLsbD_ofBool]
  rcases this with rfl | rfl | rfl | rfl | rfl | rfl | rfl | rfl <;> simp

theorem packByte_eq_frameField (f : Frame) (lo : Nat) :
    packByte (fun k => frameBit f (lo + k)) = frameField f lo 8 := by
  simp only [packByte, frameField, Nat.add_zero, BitVec.concat]
  rw [show (0#0 ++ BitVec.ofBool (frameBit f lo) : BitVec 1) = BitVec.ofBool (frameBit f lo) from by
    cases frameBit f lo <;> rfl]

/-- A whole extracted byte is the frame field at its place. -/
theorem extractByte_whole (f : Frame) (start count j : Nat) (h : 8 * j + 8 ≤ count) :
    extractByte f start count j = frameField f (start + 8 * j) 8 := by
  rw [← packByte_eq_frameField]
  simp only [extractByte, packByte]
  simp [show 8 * j < count by omega, show 8 * j + 1 < count by omega, show 8 * j + 2 < count by omega,
    show 8 * j + 3 < count by omega, show 8 * j + 4 < count by omega, show 8 * j + 5 < count by omega,
    show 8 * j + 6 < count by omega, show 8 * j + 7 < count by omega, Nat.add_assoc]

/-- A last byte of four bits has the field in its high nibble and zeros below. -/
theorem extractByte_half (f : Frame) (start count j : Nat) (h : 8 * j + 4 = count) :
    extractByte f start count j = frameField f (start + 8 * j) 4 ++ 0#4 := by
  subst h
  apply BitVec.eq_of_getLsbD_eq
  intro i hi
  simp only [extractByte, packByte, BitVec.getLsbD_append, frameField_getLsbD, BitVec.getLsbD_ofBool]
  have : i = 0 ∨ i = 1 ∨ i = 2 ∨ i = 3 ∨ i = 4 ∨ i = 5 ∨ i = 6 ∨ i = 7 := by omega
  rcases this with rfl | rfl | rfl | rfl | rfl | rfl | rfl | rfl <;> simp [Nat.add_assoc]

/-- Equal bits give equal bytes. -/
theorem frameBytes_congr {f g : Frame} {lo n : Nat}
    (h : ∀ i, lo ≤ i → i < lo + 8 * n → frameBit f i = frameBit g i) :
    frameBytes f lo n = frameBytes g lo n := by
  apply List.map_congr_left
  intro j hj
  rw [List.mem_range] at hj
  exact frameField_congr fun i h₁ h₂ => h i (by omega) (by omega)

/-- The Classic payload: eight frame bytes from position 4. -/
theorem extract_classic (f : Frame) (len : Nat) (h : extractPre len 4 64) :
    extract f len 4 64 h = frameBytes f 4 8 := by
  simp [extract, frameBytes, List.range_succ, extractByte_whole]

/-- The EG53MA4 payload: ten frame bytes from position 40. -/
theorem extract_eg (f : Frame) (len : Nat) (h : extractPre len 40 80) :
    extract f len 40 80 h = frameBytes f 40 10 := by
  simp [extract, frameBytes, List.range_succ, extractByte_whole]

/-- The SE3 payload: four frame bytes from position 16, then four bits and four zeros. -/
theorem extract_se3 (f : Frame) (len : Nat) (h : extractPre len 16 36) :
    extract f len 16 36 h = frameBytes f 16 4 ++ [frameField f 48 4 ++ 0#4] := by
  simp [extract, frameBytes, List.range_succ, extractByte_whole, extractByte_half]

end Sys2Proof.Machine
end

