-- ==== Sys2Proof/Laws/State.lean ====
section
/-! SUPPORT. One lemma per field per update of the state record, each true by rfl: no later proof unfolds
a record update. -/

namespace Sys2Proof.Machine

section
variable (o : DecodeOutcome) (s : State)
@[simp] theorem complete_se3ParityEn : (complete o s).se3ParityEn = s.se3ParityEn := rfl
@[simp] theorem complete_busy : (complete o s).busy = false := rfl
@[simp] theorem complete_done : (complete o s).done = true := rfl
@[simp] theorem complete_werr : (complete o s).werr = s.werr := rfl
@[simp] theorem complete_lenBits : (complete o s).lenBits = s.lenBits := rfl
@[simp] theorem complete_frame : (complete o s).frame = s.frame := rfl
@[simp] theorem complete_results : (complete o s).results = commit o := rfl
@[simp] theorem complete_pendingVar : (complete o s).pendingVar = s.pendingVar := rfl
@[simp] theorem complete_tfdPage : (complete o s).tfdPage = s.tfdPage := rfl
@[simp] theorem complete_response : (complete o s).response = s.response := rfl
@[simp] theorem complete_schedule : (complete o s).schedule = s.schedule := rfl
end

section
variable (v : VariantCode) (s : State)
@[simp] theorem accept_se3ParityEn : (accept v s).se3ParityEn = s.se3ParityEn := rfl
@[simp] theorem accept_busy : (accept v s).busy = true := rfl
@[simp] theorem accept_done : (accept v s).done = false := rfl
@[simp] theorem accept_werr : (accept v s).werr = s.werr := rfl
@[simp] theorem accept_lenBits : (accept v s).lenBits = s.lenBits := rfl
@[simp] theorem accept_frame : (accept v s).frame = s.frame := rfl
@[simp] theorem accept_results : (accept v s).results = s.results := rfl
@[simp] theorem accept_pendingVar : (accept v s).pendingVar = v := rfl
@[simp] theorem accept_tfdPage : (accept v s).tfdPage = s.tfdPage := rfl
@[simp] theorem accept_response : (accept v s).response = s.response := rfl
@[simp] theorem accept_schedule : (accept v s).schedule = s.schedule := rfl
end

section
variable (s : State)
@[simp] theorem ignoreWrite_se3ParityEn : (ignoreWrite s).se3ParityEn = s.se3ParityEn := rfl
@[simp] theorem ignoreWrite_busy : (ignoreWrite s).busy = s.busy := rfl
@[simp] theorem ignoreWrite_done : (ignoreWrite s).done = s.done := rfl
@[simp] theorem ignoreWrite_werr : (ignoreWrite s).werr = true := rfl
@[simp] theorem ignoreWrite_lenBits : (ignoreWrite s).lenBits = s.lenBits := rfl
@[simp] theorem ignoreWrite_frame : (ignoreWrite s).frame = s.frame := rfl
@[simp] theorem ignoreWrite_results : (ignoreWrite s).results = s.results := rfl
@[simp] theorem ignoreWrite_pendingVar : (ignoreWrite s).pendingVar = s.pendingVar := rfl
@[simp] theorem ignoreWrite_tfdPage : (ignoreWrite s).tfdPage = s.tfdPage := rfl
@[simp] theorem ignoreWrite_response : (ignoreWrite s).response = s.response := rfl
@[simp] theorem ignoreWrite_schedule : (ignoreWrite s).schedule = s.schedule := rfl
end

section
variable (s : State)
@[simp] theorem clearWerr_se3ParityEn : (clearWerr s).se3ParityEn = s.se3ParityEn := rfl
@[simp] theorem clearWerr_busy : (clearWerr s).busy = s.busy := rfl
@[simp] theorem clearWerr_done : (clearWerr s).done = s.done := rfl
@[simp] theorem clearWerr_werr : (clearWerr s).werr = false := rfl
@[simp] theorem clearWerr_lenBits : (clearWerr s).lenBits = s.lenBits := rfl
@[simp] theorem clearWerr_frame : (clearWerr s).frame = s.frame := rfl
@[simp] theorem clearWerr_results : (clearWerr s).results = s.results := rfl
@[simp] theorem clearWerr_pendingVar : (clearWerr s).pendingVar = s.pendingVar := rfl
@[simp] theorem clearWerr_tfdPage : (clearWerr s).tfdPage = s.tfdPage := rfl
@[simp] theorem clearWerr_response : (clearWerr s).response = s.response := rfl
@[simp] theorem clearWerr_schedule : (clearWerr s).schedule = s.schedule := rfl
end

section
variable (v : Word) (s : State)
@[simp] theorem setCtrl_se3ParityEn : (setCtrl v s).se3ParityEn = v.getLsbD 0 := rfl
@[simp] theorem setCtrl_busy : (setCtrl v s).busy = s.busy := rfl
@[simp] theorem setCtrl_done : (setCtrl v s).done = s.done := rfl
@[simp] theorem setCtrl_werr : (setCtrl v s).werr = s.werr := rfl
@[simp] theorem setCtrl_lenBits : (setCtrl v s).lenBits = s.lenBits := rfl
@[simp] theorem setCtrl_frame : (setCtrl v s).frame = s.frame := rfl
@[simp] theorem setCtrl_results : (setCtrl v s).results = s.results := rfl
@[simp] theorem setCtrl_pendingVar : (setCtrl v s).pendingVar = s.pendingVar := rfl
@[simp] theorem setCtrl_tfdPage : (setCtrl v s).tfdPage = s.tfdPage := rfl
@[simp] theorem setCtrl_response : (setCtrl v s).response = s.response := rfl
@[simp] theorem setCtrl_schedule : (setCtrl v s).schedule = s.schedule := rfl
end

section
variable (v : Word) (s : State)
@[simp] theorem setLen_se3ParityEn : (setLen v s).se3ParityEn = s.se3ParityEn := rfl
@[simp] theorem setLen_busy : (setLen v s).busy = s.busy := rfl
@[simp] theorem setLen_done : (setLen v s).done = s.done := rfl
@[simp] theorem setLen_werr : (setLen v s).werr = s.werr := rfl
@[simp] theorem setLen_lenBits : (setLen v s).lenBits = v.extractLsb' 0 16 := rfl
@[simp] theorem setLen_frame : (setLen v s).frame = s.frame := rfl
@[simp] theorem setLen_results : (setLen v s).results = s.results := rfl
@[simp] theorem setLen_pendingVar : (setLen v s).pendingVar = s.pendingVar := rfl
@[simp] theorem setLen_tfdPage : (setLen v s).tfdPage = s.tfdPage := rfl
@[simp] theorem setLen_response : (setLen v s).response = s.response := rfl
@[simp] theorem setLen_schedule : (setLen v s).schedule = s.schedule := rfl
end

section
variable (k : Fin 4) (v : Word) (s : State)
@[simp] theorem setFrame_se3ParityEn : (setFrame k v s).se3ParityEn = s.se3ParityEn := rfl
@[simp] theorem setFrame_busy : (setFrame k v s).busy = s.busy := rfl
@[simp] theorem setFrame_done : (setFrame k v s).done = s.done := rfl
@[simp] theorem setFrame_werr : (setFrame k v s).werr = s.werr := rfl
@[simp] theorem setFrame_lenBits : (setFrame k v s).lenBits = s.lenBits := rfl
@[simp] theorem setFrame_frame : (setFrame k v s).frame = frameSet s.frame k v := rfl
@[simp] theorem setFrame_results : (setFrame k v s).results = s.results := rfl
@[simp] theorem setFrame_pendingVar : (setFrame k v s).pendingVar = s.pendingVar := rfl
@[simp] theorem setFrame_tfdPage : (setFrame k v s).tfdPage = s.tfdPage := rfl
@[simp] theorem setFrame_response : (setFrame k v s).response = s.response := rfl
@[simp] theorem setFrame_schedule : (setFrame k v s).schedule = s.schedule := rfl
end

section
variable (r : BusResponse) (s : State)
@[simp] theorem respond_se3ParityEn : (respond r s).se3ParityEn = s.se3ParityEn := rfl
@[simp] theorem respond_busy : (respond r s).busy = s.busy := rfl
@[simp] theorem respond_done : (respond r s).done = s.done := rfl
@[simp] theorem respond_werr : (respond r s).werr = s.werr := rfl
@[simp] theorem respond_lenBits : (respond r s).lenBits = s.lenBits := rfl
@[simp] theorem respond_frame : (respond r s).frame = s.frame := rfl
@[simp] theorem respond_results : (respond r s).results = s.results := rfl
@[simp] theorem respond_pendingVar : (respond r s).pendingVar = s.pendingVar := rfl
@[simp] theorem respond_tfdPage : (respond r s).tfdPage = s.tfdPage := rfl
@[simp] theorem respond_response : (respond r s).response = r := rfl
@[simp] theorem respond_schedule : (respond r s).schedule = s.schedule := rfl
end

section
variable (es : List Event) (s : State)
@[simp] theorem withSchedule_se3ParityEn : (withSchedule es s).se3ParityEn = s.se3ParityEn := rfl
@[simp] theorem withSchedule_busy : (withSchedule es s).busy = s.busy := rfl
@[simp] theorem withSchedule_done : (withSchedule es s).done = s.done := rfl
@[simp] theorem withSchedule_werr : (withSchedule es s).werr = s.werr := rfl
@[simp] theorem withSchedule_lenBits : (withSchedule es s).lenBits = s.lenBits := rfl
@[simp] theorem withSchedule_frame : (withSchedule es s).frame = s.frame := rfl
@[simp] theorem withSchedule_results : (withSchedule es s).results = s.results := rfl
@[simp] theorem withSchedule_pendingVar : (withSchedule es s).pendingVar = s.pendingVar := rfl
@[simp] theorem withSchedule_tfdPage : (withSchedule es s).tfdPage = s.tfdPage := rfl
@[simp] theorem withSchedule_response : (withSchedule es s).response = s.response := rfl
@[simp] theorem withSchedule_schedule : (withSchedule es s).schedule = es := rfl
end

section
variable (s : State)
@[simp] theorem resetTfd_se3ParityEn : (resetTfd s).se3ParityEn = true := rfl
@[simp] theorem resetTfd_busy : (resetTfd s).busy = false := rfl
@[simp] theorem resetTfd_done : (resetTfd s).done = false := rfl
@[simp] theorem resetTfd_werr : (resetTfd s).werr = false := rfl
@[simp] theorem resetTfd_lenBits : (resetTfd s).lenBits = 0 := rfl
@[simp] theorem resetTfd_frame : (resetTfd s).frame = Frame.reset := rfl
@[simp] theorem resetTfd_results : (resetTfd s).results = Results.reset := rfl
@[simp] theorem resetTfd_pendingVar : (resetTfd s).pendingVar = 0 := rfl
@[simp] theorem resetTfd_tfdPage : (resetTfd s).tfdPage = s.tfdPage := rfl
@[simp] theorem resetTfd_response : (resetTfd s).response = s.response := rfl
@[simp] theorem resetTfd_schedule : (resetTfd s).schedule = s.schedule := rfl
end

@[simp] theorem reset_busy : State.reset.busy = false := rfl
@[simp] theorem reset_done : State.reset.done = false := rfl
@[simp] theorem reset_werr : State.reset.werr = false := rfl
@[simp] theorem reset_results : State.reset.results = Results.reset := rfl
@[simp] theorem reset_schedule : State.reset.schedule = [] := rfl

end Sys2Proof.Machine
end

