-- ==== Sys2Proof/Laws/Ops.lean ====
section
/-! SUPPORT. Once per shared operation: everything it can do. The register map read both ways, what a
write can change, what a host access can change. -/

namespace Sys2Proof.Machine

/-- Every register is at its offset (R21). -/
theorem regAt_regOffset (r : Reg) : regAt (regOffset r) = some r := by
  cases r with
  | frame k => fin_cases k <;> rfl
  | payload k => fin_cases k <;> rfl
  | _ => rfl

/-- Everything a write at a window offset can do (R54). -/
theorem writeWindow_cases (off : BitVec 8) (v : Word) (s : State) :
    writeWindow off v s = s ∨
    (s.busy = true ∧ writeWindow off v s = ignoreWrite s) ∨
    (s.busy = false ∧ writeWindow off v s = accept (commandVariant v) s) ∨
    writeWindow off v s = clearWerr s ∨
    (s.busy = false ∧ writeWindow off v s = setCtrl v s) ∨
    (s.busy = false ∧ writeWindow off v s = setLen v s) ∨
    (s.busy = false ∧ ∃ k, writeWindow off v s = setFrame k v s) := by
  cases hr : regAt off with
  | none => exact .inl (by simp [writeWindow, hr])
  | some r =>
    have e : writeWindow off v s = writeReg r v s := by simp [writeWindow, hr]
    rw [e]
    cases hb : s.busy
    case true =>
      cases r with
      | ctrl | cmd | len | frame => exact .inr (.inl ⟨rfl, by simp [writeReg, guardedByBusy, hb]⟩)
      | status =>
        cases hv : v.getLsbD 2
        · exact .inl (by simp only [writeReg, guardedByBusy, honourWrite, hv]; rfl)
        · exact .inr (.inr (.inr (.inl (by simp only [writeReg, guardedByBusy, honourWrite, hv]; rfl))))
      | _ => exact .inl rfl
    case false =>
      have w : writeReg r v s = honourWrite r v s := by simp [writeReg, hb]
      rw [w]
      cases r with
      | ctrl => exact .inr (.inr (.inr (.inr (.inl ⟨rfl, rfl⟩))))
      | cmd => exact .inr (.inr (.inl ⟨rfl, rfl⟩))
      | len => exact .inr (.inr (.inr (.inr (.inr (.inl ⟨rfl, rfl⟩)))))
      | frame k => exact .inr (.inr (.inr (.inr (.inr (.inr ⟨rfl, k, rfl⟩)))))
      | status =>
        cases hv : v.getLsbD 2
        · exact .inl (by simp only [honourWrite, hv]; rfl)
        · exact .inr (.inr (.inr (.inl (by simp only [honourWrite, hv]; rfl))))
      | _ => exact .inl rfl

/-- A read only answers (R53, R214, R51). -/
theorem hostRead_cases (addr n : Nat) (s : State) :
    hostRead addr n s = respond .none s ∨ hostRead addr n s = respond (.busError addr) s ∨
    ∃ off, windowOffset s addr = some off ∧ admitted n off = true ∧
      hostRead addr n s = respond (.data (readWindow s off)) s := by
  unfold hostRead
  split
  · exact .inl rfl
  · rename_i off h
    split
    · rename_i ha
      exact .inr (.inr ⟨off, h, ha, rfl⟩)
    · exact .inr (.inl rfl)

/-- A write answers, and where it is admitted writes its register (R54, R214, R51). -/
theorem hostWrite_cases (addr n : Nat) (v : Word) (s : State) :
    hostWrite addr n v s = respond .none s ∨ hostWrite addr n v s = respond (.busError addr) s ∨
    ∃ off, windowOffset s addr = some off ∧ admitted n off = true ∧
      hostWrite addr n v s = respond .done (writeWindow off v s) := by
  unfold hostWrite
  split
  · exact .inl rfl
  · rename_i off h
    split
    · rename_i ha
      exact .inr (.inr ⟨off, h, ha, rfl⟩)
    · exact .inr (.inl rfl)

/-- The offset of an address inside the window (R51). -/
theorem windowOffset_base_add (s : State) (off : BitVec 8) :
    windowOffset s (tfdBase s + off.toNat) = some off := by
  have := off.isLt
  simp [windowOffset, show off.toNat ≤ 255 by omega]

/-- An admitted write at an offset (R54). -/
theorem hostWrite_admitted (s : State) (off : BitVec 8) (v : Word) (h : off &&& 3 = 0) :
    hostWrite (tfdBase s + off.toNat) 4 v s = respond .done (writeWindow off v s) := by
  have ha : admitted 4 off = true := by simp only [admitted, h]; rfl
  simp only [hostWrite, windowOffset_base_add, ha, if_true]

/-- An admitted read at an offset (R53). -/
theorem hostRead_admitted (s : State) (off : BitVec 8) (h : off &&& 3 = 0) :
    hostRead (tfdBase s + off.toNat) 4 s = respond (.data (readWindow s off)) s := by
  have ha : admitted 4 off = true := by simp only [admitted, h]; rfl
  simp only [hostRead, windowOffset_base_add, ha, if_true]

@[simp] theorem windowOffset_withSchedule (es : List Event) (s : State) (a : Nat) :
    windowOffset (withSchedule es s) a = windowOffset s a := rfl

@[simp] theorem tfdBase_withSchedule (es : List Event) (s : State) :
    tfdBase (withSchedule es s) = tfdBase s := rfl

@[simp] theorem readWindow_withSchedule (es : List Event) (s : State) (off : BitVec 8) :
    readWindow (withSchedule es s) off = readWindow s off := rfl

/-- A write does not look at the schedule. -/
theorem writeWindow_withSchedule (off : BitVec 8) (v : Word) (es : List Event) (s : State) :
    writeWindow off v (withSchedule es s) = withSchedule es (writeWindow off v s) := by
  have honour : ∀ r, honourWrite r v (withSchedule es s) = withSchedule es (honourWrite r v s) := by
    intro r
    cases r with
    | status => simp only [honourWrite, apply_ite (withSchedule es)]; rfl
    | _ => rfl
  unfold writeWindow
  cases regAt off with
  | none => rfl
  | some r =>
    show writeReg r v (withSchedule es s) = withSchedule es (writeReg r v s)
    rw [writeReg, writeReg, apply_ite (withSchedule es), honour]
    rfl

/-- From offset 0x20 on a register is neither guarded by BUSY nor STATUS, so a write of it does nothing
(R38, R54). -/
theorem writeWindow_readOnly (off : BitVec 8) (v : Word) (s : State) (h : 0x20 ≤ off) :
    writeWindow off v s = s := by
  have key : ∀ off : BitVec 8, 0x20 ≤ off →
      ((regAt off).all fun r => !guardedByBusy r && r != .status) = true := by decide +kernel
  have hk := key off h
  unfold writeWindow
  cases hr : regAt off with
  | none => rfl
  | some r =>
    rw [hr, Option.all_some, Bool.and_eq_true] at hk
    cases r with
    | ctrl | cmd | len | frame => exact absurd hk.1 (by simp [guardedByBusy])
    | status => exact absurd hk.2 (by decide)
    | _ => rfl

/-- Payload bytes by place. -/
@[simp] theorem payloadByte_zero (b : Byte) (bs : List Byte) : payloadByte (b :: bs) 0 = b := rfl

@[simp] theorem payloadByte_succ (b : Byte) (bs : List Byte) (j : Nat) :
    payloadByte (b :: bs) (j + 1) = payloadByte bs j := rfl

@[simp] theorem payloadByte_nil (j : Nat) : payloadByte [] j = 0 := rfl

/-- Four bytes read back from the word they make. -/
theorem extract_word_bytes (a b c d : Byte) :
    (a ++ b ++ c ++ d).extractLsb' 24 8 = a ∧ (a ++ b ++ c ++ d).extractLsb' 16 8 = b ∧
    (a ++ b ++ c ++ d).extractLsb' 8 8 = c ∧ (a ++ b ++ c ++ d).extractLsb' 0 8 = d := by
  refine ⟨?_, ?_, ?_, ?_⟩ <;>
  · ext i hi
    simp only [BitVec.getElem_extractLsb', BitVec.getLsbD_append]
    simp [hi, show ¬ 8 + i < 8 by omega, show ¬ 16 + i < 8 by omega, show ¬ 24 + i < 8 by omega,
      show 24 + i - 8 = 16 + i by omega, show 16 + i - 8 = 8 + i by omega, BitVec.getLsbD_eq_getElem]

/-- Two bytes read back from the upper half of a word (R37). -/
theorem extract_upper_bytes (a b : Byte) (low : BitVec 16) :
    (a ++ b ++ low).extractLsb' 24 8 = a ∧ (a ++ b ++ low).extractLsb' 16 8 = b := by
  constructor <;>
  · ext i hi
    simp only [BitVec.getElem_extractLsb', BitVec.getLsbD_append]
    simp [hi, show ¬ 16 + i < 16 by omega, show ¬ 24 + i < 16 by omega,
      show 24 + i - 16 = 8 + i by omega, show ¬ 8 + i < 8 by omega, BitVec.getLsbD_eq_getElem]

/-- The payload bytes that a commit leaves are the outcome's ten (R37, R94). -/
theorem payloadBytes_commit (o : DecodeOutcome) {b0 b1 b2 b3 b4 b5 b6 b7 b8 b9 : Byte}
    (hp : o.pl = [b0, b1, b2, b3, b4, b5, b6, b7, b8, b9]) : (commit o).payloadBytes = o.pl := by
  obtain ⟨h0, h1, h2, h3⟩ := extract_word_bytes b0 b1 b2 b3
  obtain ⟨h4, h5, h6, h7⟩ := extract_word_bytes b4 b5 b6 b7
  obtain ⟨h8, h9⟩ := extract_upper_bytes b8 b9 0
  simp only [Results.payloadBytes, commit, hp, payloadByte, List.getD_cons_zero, List.getD_cons_succ,
    h0, h1, h2, h3, h4, h5, h6, h7, h8, h9]

end Sys2Proof.Machine
end

