-- ==== Sys2Proof/Laws/Decode.lean ====
section
/-! SUPPORT. The command decoder's small lemmas, and each decode's outcome once: which of its cases it
returns (R150, R170, R190, R104). -/

namespace Sys2Proof

@[simp] theorem decodeVariant_variantCode (i : Instr) : decodeVariant (variantCode i) = i := by
  cases i <;> rfl

@[simp] theorem variantCode_decodeVariant (v : VariantCode) : variantCode (decodeVariant v) = v := by
  revert v
  decide

@[simp] theorem commandVariant_zext32 (v : VariantCode) : commandVariant (zext32 v) = v := by
  revert v
  decide

theorem wordOfBytes_wordBytes (w : Word) :
    wordOfBytes (w.extractLsb' 0 8) (w.extractLsb' 8 8) (w.extractLsb' 16 8) (w.extractLsb' 24 8) = w := by
  apply BitVec.eq_of_getLsbD_eq
  intro i hi
  simp only [wordOfBytes, BitVec.getLsbD_append, BitVec.getLsbD_extractLsb']
  by_cases h₁ : i < 8
  · simp [h₁]
  · by_cases h₂ : i < 16
    · simp [h₁, show i - 8 < 8 by omega, show 8 + (i - 8) = i by omega]
    · by_cases h₃ : i < 24
      · simp [h₁, show ¬ i - 8 < 8 by omega, show i - 8 - 8 < 8 by omega,
          show 16 + (i - 8 - 8) = i by omega]
      · simp [h₁, show ¬ i - 8 < 8 by omega, show ¬ i - 8 - 8 < 8 by omega,
          show i - 8 - 8 - 8 < 8 by omega, show 24 + (i - 8 - 8 - 8) = i by omega]

/-- The bytes of a word decode to the word's command, and the bytes after them are left. -/
theorem decode_wordBytes (w : Word) (rest : List Byte) :
    decode (wordBytes w ++ rest) = .ok (decodeWord w, rest) := by
  show Except.ok (decodeWord (wordOfBytes _ _ _ _), rest) = _
  rw [wordOfBytes_wordBytes]

namespace Machine

/-- The command in flight is the one PENDING_VAR names. -/
@[simp] theorem decodeWord_latchedWord (s : State) :
    decodeWord (latchedWord s) = decodeVariant s.pendingVar := by
  simp [decodeWord, latchedWord]

/-- The outcome of a command, with its operands named. -/
def commandOutcome (i : Instr) (len : FrameLen) (f : Frame) (enf : Bool) : DecodeOutcome :=
  match i with
  | .decodeClassic => decodeClassic len f
  | .decodeEg53ma4 => decodeEg53ma4 len f
  | .decodeSe3 => decodeSe3 len f enf
  | .reservedVariant => decodeReserved

/-- Everything `exec` can do: it commits the command's outcome. -/
theorem exec_eq (i : Instr) (s : State) :
    exec i s = .next (complete (commandOutcome i s.lenBits s.frame s.se3ParityEn) s) := by
  cases i <;> rfl

theorem decodeFrame_eq (v : VariantCode) (len : FrameLen) (f : Frame) (enf : Bool) :
    decodeFrame v len f enf = commandOutcome (decodeVariant v) len f enf := rfl

/-- A Classic decode of a wrong length (R151). -/
theorem decodeClassic_length {len : FrameLen} (f : Frame) (h : len ≠ 68) :
    decodeClassic len f = fail .frameLengthMismatch 0 :=
  dif_neg h

/-- A Classic decode of the right length, over the frame's bytes (R150, R152). -/
theorem decodeClassic_68 (f : Frame) : decodeClassic 68 f = unpackClassic (frameBytes f 4 8) :=
  (dif_pos rfl).trans (congrArg unpackClassic (extract_classic f 68 _))

/-- An EG53MA4 decode of a wrong length (R171). -/
theorem decodeEg53ma4_length {len : FrameLen} (f : Frame) (h : len ≠ 120) :
    decodeEg53ma4 len f = fail .frameLengthMismatch 1 :=
  dif_neg h

/-- An EG53MA4 decode of the right length, over the frame's bytes (R170, R172). -/
theorem decodeEg53ma4_120 (f : Frame) : decodeEg53ma4 120 f = unpackEg53ma4 (frameBytes f 40 10) :=
  (dif_pos rfl).trans (congrArg unpackEg53ma4 (extract_eg f 120 _))

/-- An SE3 decode of a wrong length (R191). -/
theorem decodeSe3_length {len : FrameLen} (f : Frame) (enf : Bool) (h₁ : len ≠ 52) (h₂ : len ≠ 53) :
    decodeSe3 len f enf = fail .frameLengthMismatch 2 :=
  dif_neg fun h => h.elim h₁ h₂

/-- An SE3 decode of an accepted length, over the frame's bytes (R190, R192). -/
theorem decodeSe3_accepted {len : FrameLen} (f : Frame) (enf : Bool) (h : len = 52 ∨ len = 53) :
    decodeSe3 len f enf = unpackSe3 (frameBytes f 16 4 ++ [frameField f 48 4 ++ 0#4]) enf :=
  (dif_pos h).trans (congrArg (unpackSe3 · enf) (extract_se3 f _ _))

end Machine

end Sys2Proof
end

