-- ==== Sys2Proof/Laws/Integrity.lean ====
section
/-! SUPPORT. The integrity validators' small lemmas: the parity of a list is the parities of its bytes
together (R137), and the SE3 codes are frame bits (R193, R195). -/

namespace Sys2Proof.Machine

theorem xparAcc_cons (b : Byte) (bs : List Byte) : xparAcc (b :: bs) = b ^^^ xparAcc bs := by
  have h : ∀ (bs : List Byte) (a c : Byte),
      bs.foldl (fun acc b => acc ^^^ b) (a ^^^ c) = a ^^^ bs.foldl (fun acc b => acc ^^^ b) c := by
    intro bs
    induction bs with
    | nil => intro a c; rfl
    | cons x xs ih => intro a c; rw [List.foldl_cons, List.foldl_cons, BitVec.xor_assoc, ih]
  rw [xparAcc, xparAcc, List.foldl_cons, BitVec.xor_comm 0 b, h]

/-- The parity of a list is its first byte's parity and the rest's (R137). -/
theorem xpar_cons (b : Byte) (bs : List Byte) : xpar (b :: bs) = (xpar [b] ^^ xpar bs) := by
  have e : xparAcc [b] = b := by simp [xparAcc]
  simp only [xpar, xparAcc_cons b bs, e, BitVec.getLsbD_xor]
  have swap : ∀ p q x y : Bool, ((p ^^ q) ^^ (x ^^ y)) = ((p ^^ x) ^^ (q ^^ y)) := by decide
  generalize xparAcc bs = c
  rw [swap (b.getLsbD 7), swap (b.getLsbD 7 ^^ b.getLsbD 6),
    swap (b.getLsbD 7 ^^ b.getLsbD 6 ^^ b.getLsbD 5),
    swap (b.getLsbD 7 ^^ b.getLsbD 6 ^^ b.getLsbD 5 ^^ b.getLsbD 4),
    swap (b.getLsbD 7 ^^ b.getLsbD 6 ^^ b.getLsbD 5 ^^ b.getLsbD 4 ^^ b.getLsbD 3),
    swap (b.getLsbD 7 ^^ b.getLsbD 6 ^^ b.getLsbD 5 ^^ b.getLsbD 4 ^^ b.getLsbD 3 ^^ b.getLsbD 2),
    swap (b.getLsbD 7 ^^ b.getLsbD 6 ^^ b.getLsbD 5 ^^ b.getLsbD 4 ^^ b.getLsbD 3 ^^ b.getLsbD 2 ^^
      b.getLsbD 1)]

@[simp] theorem xpar_nil : xpar [] = false := rfl

theorem frameParity_append (f : Frame) (lo m n : Nat) :
    frameParity f lo (m + n) = (frameParity f lo m ^^ frameParity f (lo + m) n) := by
  induction n with
  | zero => simp [frameParity]
  | succ n ih => rw [← Nat.add_assoc, frameParity, ih, frameParity, Bool.xor_assoc, Nat.add_assoc]

/-- The parity of a frame byte is the parity of its bits. -/
theorem xpar_frameField (f : Frame) (lo : Nat) : xpar [frameField f lo 8] = frameParity f lo 8 := by
  have e : xparAcc [frameField f lo 8] = frameField f lo 8 := by simp [xparAcc]
  simp only [xpar, e, frameField_getLsbD, frameParity]
  simp

/-- The parity of the masked last SE3 byte is the parity of its three data bits (R194). -/
theorem xpar_se3Mask (f : Frame) (lo : Nat) :
    xpar [se3Mask (frameField f lo 4 ++ 0#4)] = frameParity f lo 3 := by
  have e : ∀ b : Byte, xparAcc [b] = b := fun b => by simp [xparAcc]
  simp only [xpar, e]
  simp only [se3Mask, BitVec.getLsbD_and, BitVec.getLsbD_append, frameField_getLsbD,
    frameParity]
  simp

/-- The SE3 computed parity is over frame bits 16 to 50 (R77, R195). -/
theorem xpar_se3 (f : Frame) :
    xpar [frameField f 16 8, frameField f 24 8, frameField f 32 8, frameField f 40 8,
      se3Mask (frameField f 48 4 ++ 0#4)] = frameParity f 16 35 := by
  rw [xpar_cons, xpar_cons (frameField f 24 8), xpar_cons (frameField f 32 8),
    xpar_cons (frameField f 40 8)]
  simp only [xpar_frameField, xpar_se3Mask]
  rw [show (35 : Nat) = 8 + (8 + (8 + (8 + 3))) from rfl]
  simp only [frameParity_append]

/-- The SE3 payload by bytes. -/
theorem se3Payload_eq (f : Frame) :
    frameBytes f 16 4 ++ [frameField f 48 4 ++ 0#4] =
      [frameField f 16 8, frameField f 24 8, frameField f 32 8, frameField f 40 8,
        frameField f 48 4 ++ 0#4] := rfl

/-- The computed SE3 code as a bit of the frame's parity (R195). -/
theorem se3Computed_frame (f : Frame) :
    se3Computed (frameBytes f 16 4 ++ [frameField f 48 4 ++ 0#4]) = bitCode (frameParity f 16 35) := by
  rw [se3Payload_eq, ← xpar_se3]
  rfl

/-- The received SE3 code is frame bit 51 (R77, R193). -/
theorem se3Received_frame (f : Frame) :
    se3Received (frameBytes f 16 4 ++ [frameField f 48 4 ++ 0#4]) = bitCode (frameBit f 51) := by
  rw [se3Payload_eq]
  have h : (frameField f 48 4 ++ 0#4).getLsbD 4 = frameBit f 51 := by
    simp only [BitVec.getLsbD_append, frameField_getLsbD]
    simp
  simp only [se3Received, payloadByte, List.getD_cons_zero, List.getD_cons_succ, h]
  rfl

theorem bitCode_inj {a b : Bool} : bitCode a = bitCode b ↔ a = b := by
  revert a b
  decide

end Sys2Proof.Machine
end

