-- ==== Sys2Proof/Laws/PerInstr.lean ====
section
/-! SUPPORT. Families of statements made once per command. -/

namespace Sys2Proof.Laws

/-- The command's word, with any ignored bits, decodes to the command, and the decoder's row of
spec/opcode_table.json matches that word and no other command's row does. -/
def EncodesItself.Statement (i : Instr) : Prop :=
  ∀ ignored : BitVec 30,
    decodeWord (encodeWith ignored i) = i ∧
    ∀ j, encodeWith ignored i &&& rowMask = rowMatch j ↔ j = i

theorem encodeWith_row (ignored : BitVec 30) (i : Instr) :
    encodeWith ignored i &&& rowMask = rowMatch i := by
  apply BitVec.eq_of_getLsbD_eq
  intro k hk
  rw [BitVec.getLsbD_and, encodeWith, BitVec.getLsbD_append]
  by_cases h : k < 2
  · have : k = 0 ∨ k = 1 := by omega
    rcases this with rfl | rfl <;> cases i <;> simp [variantCode, rowMask, rowMatch]
  · have hm : rowMask.getLsbD k = false :=
      Nat.testBit_lt_two_pow (Nat.lt_of_lt_of_le (show rowMask.toNat < 2 ^ 2 by decide)
        (Nat.pow_le_pow_right (by decide) (show 2 ≤ k by omega)))
    have hi : (rowMatch i).getLsbD k = false := by
      have hlt : (rowMatch i).toNat < 2 ^ 2 := by cases i <;> decide
      exact Nat.testBit_lt_two_pow (Nat.lt_of_lt_of_le hlt (Nat.pow_le_pow_right (by decide)
        (show 2 ≤ k by omega)))
    simp [hm, hi]

theorem rowMatch_injective {i j : Instr} (h : rowMatch i = rowMatch j) : i = j := by
  revert h
  cases i <;> cases j <;> decide

theorem decodeWord_encodeWith (ignored : BitVec 30) (i : Instr) :
    decodeWord (encodeWith ignored i) = i := by
  have h : commandVariant (encodeWith ignored i) = variantCode i := by
    apply BitVec.eq_of_getLsbD_eq
    intro k hk
    rw [commandVariant, encodeWith, BitVec.getLsbD_extractLsb', BitVec.getLsbD_append]
    simp [hk]
  rw [decodeWord, h, decodeVariant_variantCode]

theorem encodesItself (i : Instr) : EncodesItself.Statement i := fun ignored =>
  ⟨decodeWord_encodeWith ignored i, fun _ =>
    ⟨fun h => rowMatch_injective (h.symm.trans (encodeWith_row ignored i)), fun h => h ▸ encodeWith_row ignored i⟩⟩

theorem EncodesItself.decodeClassic : EncodesItself.Statement .decodeClassic := encodesItself _
theorem EncodesItself.decodeEg53ma4 : EncodesItself.Statement .decodeEg53ma4 := encodesItself _
theorem EncodesItself.decodeSe3 : EncodesItself.Statement .decodeSe3 := encodesItself _
theorem EncodesItself.reservedVariant : EncodesItself.Statement .reservedVariant := encodesItself _

end Sys2Proof.Laws
end

