-- ==== Sys2Proof/Laws/Step.lean ====
section
/-! SUPPORT. Everything a step can do, once: the inversion lemma every invariant is derived from. -/

namespace Sys2Proof.Machine

/-- What one event makes of a state, event by event. -/
inductive StepCase (s : State) : Event → State → Prop where
  /-- The completion step (R93). -/
  | completes (h : s.busy = true) :
      StepCase s .engine (complete (decodeFrame s.pendingVar s.lenBits s.frame s.se3ParityEn) s)
  /-- The engine's turn without a command in flight (R90). -/
  | idles (h : s.busy = false) : StepCase s .engine s
  /-- The reset step (R240). -/
  | resets : StepCase s .reset (resetTfd s)
  /-- A read only answers (R53, R214, R51). -/
  | reads (addr n : Nat) (r : BusResponse) : StepCase s (.hostRead addr n) (respond r s)
  /-- A write that is refused or not TFD's only answers (R214, R51). -/
  | refuses (addr n : Nat) (v : Word) (r : BusResponse) : StepCase s (.hostWrite addr n v) (respond r s)
  /-- An admitted write (R54). -/
  | writes (off : BitVec 8) (v : Word) (h : off &&& 3 = 0) :
      StepCase s (.hostWrite (tfdBase s + off.toNat) 4 v) (respond .done (writeWindow off v s))

/-- Everything the engine's turn can do (R90, R93). -/
theorem engineTurn_cases (s : State) :
    (s.busy = false ∧ engineTurn s = .next s) ∨
    (s.busy = true ∧ engineTurn s = .next (complete
      (decodeFrame s.pendingVar s.lenBits s.frame s.se3ParityEn) s)) := by
  cases h : s.busy
  · exact .inl ⟨rfl, by simp [engineTurn, h]⟩
  · exact .inr ⟨rfl, by simp [engineTurn, h, exec_eq, decodeFrame_eq]⟩

/-- An admitted access is four bytes wide at a 4-aligned offset of the window (R51, R52). -/
theorem admitted_address {s : State} {addr n : Nat} {off : BitVec 8}
    (hw : windowOffset s addr = some off) (ha : admitted n off = true) :
    addr = tfdBase s + off.toNat ∧ n = 4 ∧ off &&& 3 = 0 := by
  simp only [admitted, Bool.and_eq_true, beq_iff_eq] at ha
  unfold windowOffset at hw
  split at hw
  · rename_i h
    injection hw with hw
    refine ⟨?_, ha⟩
    rw [← hw, BitVec.toNat_ofNat, Nat.mod_eq_of_lt (by omega)]
    omega
  · cases hw

/-- Everything one event can do. -/
theorem perform_cases (e : Event) (s : State) : ∃ t, perform e s = .next t ∧ StepCase s e t := by
  cases e with
  | hostRead addr n =>
    refine ⟨_, rfl, ?_⟩
    rcases hostRead_cases addr n s with h | h | ⟨_, _, _, h⟩ <;> rw [h] <;> exact .reads addr n _
  | hostWrite addr n v =>
    refine ⟨_, rfl, ?_⟩
    rcases hostWrite_cases addr n v s with h | h | ⟨off, hw, ha, h⟩
    · rw [h]; exact .refuses addr n v _
    · rw [h]; exact .refuses addr n v _
    · obtain ⟨rfl, rfl, h₃⟩ := admitted_address hw ha
      rw [h]; exact .writes off v h₃
  | engine =>
    rcases engineTurn_cases s with ⟨hb, h⟩ | ⟨hb, h⟩
    · exact ⟨s, h, .idles hb⟩
    · exact ⟨_, h, .completes hb⟩
  | reset => exact ⟨_, rfl, .resets⟩

/-- The event of the next step: the schedule's first, or the engine's turn (R90, R95). -/
def nextEvent (s : State) : Event := s.schedule.head?.getD .engine

/-- The state an event is performed on: the schedule's first event taken, if there is one. -/
def afterFetch (s : State) : State := withSchedule s.schedule.tail s

theorem step_eq_perform (s : State) : step s = perform (nextEvent s) (afterFetch s) := by
  unfold step nextTurn afterFetch nextEvent
  split
  · rename_i h
    have e : withSchedule s.schedule.tail s = s := by
      rw [h]
      exact congrArg (withSchedule · s) h.symm
    rw [e, h]
    rfl
  · rename_i e rest h
    rw [h]
    rfl

/-- Everything a step can do. -/
theorem step_cases (s : State) :
    ∃ t, step s = .next t ∧ StepCase (afterFetch s) (nextEvent s) t := by
  rw [step_eq_perform]
  exact perform_cases _ _

/-- What a step that answers `t` did: `step_cases` read from the step. -/
theorem stepCase_of_step {s t : State} (h : step s = .next t) :
    StepCase (afterFetch s) (nextEvent s) t := by
  obtain ⟨u, hu, hc⟩ := step_cases s
  rw [hu] at h
  injection h with h
  exact h ▸ hc

/-- An event that is not the engine's turn came from the schedule. -/
theorem schedule_of_nextEvent {s : State} {e : Event} (h : nextEvent s = e) (hne : e ≠ .engine) :
    ∃ rest, s.schedule = e :: rest := by
  cases hs : s.schedule with
  | nil => simp [nextEvent, hs] at h; exact absurd h.symm hne
  | cons a r => simp [nextEvent, hs] at h; exact ⟨r, by rw [h]⟩

/-- A run of `k + 1` steps whose first step answers `t` is the run of `k` steps from `t`. -/
theorem runSteps_succ (k : Nat) {s t : State} (h : step s = .next t) :
    runSteps (k + 1) s = runSteps k t := by
  have h' : Sys2Proof.core.step s = .next t := h
  simp only [runSteps, Host.Core.run]
  rw [h']

@[simp] theorem runSteps_zero (s : State) : runSteps 0 s = .next s := rfl

/-- A run of `k + m` steps whose first `k` steps answer `t` is the run of `m` steps from `t`. -/
theorem runSteps_add (k m : Nat) {s t : State} (h : runSteps k s = .next t) :
    runSteps (k + m) s = runSteps m t := by
  induction k generalizing s with
  | zero =>
    injection h with h
    rw [Nat.zero_add, h]
  | succ k ih =>
    obtain ⟨u, hu, -⟩ := step_cases s
    rw [runSteps_succ k hu] at h
    rw [Nat.add_right_comm, runSteps_succ (k + m) hu, ih h]

section
variable (s : State)
@[simp] theorem afterFetch_se3ParityEn : (afterFetch s).se3ParityEn = s.se3ParityEn := rfl
@[simp] theorem afterFetch_busy : (afterFetch s).busy = s.busy := rfl
@[simp] theorem afterFetch_done : (afterFetch s).done = s.done := rfl
@[simp] theorem afterFetch_werr : (afterFetch s).werr = s.werr := rfl
@[simp] theorem afterFetch_lenBits : (afterFetch s).lenBits = s.lenBits := rfl
@[simp] theorem afterFetch_frame : (afterFetch s).frame = s.frame := rfl
@[simp] theorem afterFetch_results : (afterFetch s).results = s.results := rfl
@[simp] theorem afterFetch_pendingVar : (afterFetch s).pendingVar = s.pendingVar := rfl
@[simp] theorem afterFetch_tfdPage : (afterFetch s).tfdPage = s.tfdPage := rfl
@[simp] theorem afterFetch_schedule : (afterFetch s).schedule = s.schedule.tail := rfl
@[simp] theorem tfdBase_afterFetch : tfdBase (afterFetch s) = tfdBase s := rfl
end

end Sys2Proof.Machine
end

