-- ==== Sys2Proof/Tests/Slice0.lean ====
section
/-! SUPPORT. The model's own tests: command words written out from R70 and R71, the spec's vectors
(95_test_vectors.md) one step each, and for every obligation with hypotheses a state that meets them. -/

namespace Sys2Proof.Tests

open Sys2Proof.Machine

/-! ### The command word -/

/-- Four words written bit by bit: bits 31:2 ignored, then VARIANT (R70, R71). -/
theorem test_decode_words :
    decode [0b00000000, 0b00000000, 0b00000000, 0b00000000] = .ok (.decodeClassic, []) ∧
    decode [0b00000001, 0b00000000, 0b00000000, 0b00000000] = .ok (.decodeEg53ma4, []) ∧
    decode [0b00000010, 0b00000000, 0b00000000, 0b00000000] = .ok (.decodeSe3, []) ∧
    decode [0b00000011, 0b00000000, 0b00000000, 0b00000000] = .ok (.reservedVariant, []) := by decide

/-- V-DS-2, V-DS-3: the ignored bits may be anything. -/
theorem test_decode_ignored_bits :
    decodeWord 0b00000000000000000000000000010000 = .decodeClassic ∧
    decodeWord 0b11111111111111111111111111111111 = .reservedVariant := by decide

/-- A word cut off after three bytes is rejected by name. -/
theorem test_decode_truncated : decode [0, 0, 0] = .error .truncatedWord := by decide

/-- The rows' own match values, as the host numbers them. -/
theorem test_table_words :
    decodeTableWord 32 0x00000000 = some .decodeClassic ∧ decodeTableWord 32 0x00000001 = some .decodeEg53ma4 ∧
    decodeTableWord 32 0x00000002 = some .decodeSe3 ∧ decodeTableWord 32 0x00000003 = some .reservedVariant ∧
    decodeTableWord 8 0x00000002 = some .decodeSe3 := by decide

/-- A word with an ignored bit set is not the one software should write (R73). -/
theorem test_canonical_refuses : canonicalCommandWord 0x00000010 = false := by decide

/-- The canonical words pass, and every command is well formed. -/
theorem test_canonical_accepts :
    canonicalCommandWord 0x00000003 = true ∧ Instr.wellFormed .reservedVariant = true := by decide

/-! ### One command, one step -/

/-- A frame by its registers. -/
abbrev frame (w0 w1 w2 w3 : Word) : Frame := { w0 := w0, w1 := w1, w2 := w2, w3 := w3 }

/-- The frame of W2 and V-CL-1. -/
abbrev frameW2 : Frame := frame 0x0703A38B 0x2004949D 0x70000000 0

/-- The frame of V-CL-3. -/
abbrev frameCl3 : Frame := frame 0x0703A38B 0x2004949D 0x60000000 0

/-- The frame of V-EG-1. -/
abbrev frameEg1 : Frame := frame 0x00000000 0x00123456 0x78ABCDEF 0x644B2A00

/-- The frame of V-EG-2. -/
abbrev frameEg2 : Frame := frame 0x00000000 0x00123456 0x78ABCDEF 0x644B2B00

/-- The frame of V-SE-1. -/
abbrev frameSe1 : Frame := frame 0xFFFFA246 0x8AD39000 0 0

/-- The frame of V-SE-3. -/
abbrev frameSe3 : Frame := frame 0xFFFFA246 0x8AD38000 0 0

/-- The reset state with a frame, its length and CTRL loaded. -/
abbrev loaded (f : Frame) (len : FrameLen) (enf : Bool) : State :=
  { State.reset with frame := f, lenBits := len, se3ParityEn := enf }

/-- A state with a command of variant `v` in flight. -/
abbrev inFlight (v : VariantCode) (s : State) : State := { s with busy := true, pendingVar := v }

/-- The result registers the next step leaves, the command word `w` placed. -/
def resultsOf (w : Nat) (s : State) : Option Results :=
  match step (s.withFetchWord 32 w) with
  | .next t => some t.results
  | .fault _ => none
  | .refused _ => none

/-- The result registers of V-CL-1. -/
abbrev resultsW2 : Results :=
  { result := 0x03000001, sensorId := 0x0A38B200, flags := 0x00000003, pressureRaw := 0x00000049
    pressure := 0x00000721, temperature := 0x00000017, check := 0x0000D7D7
    payload0 := 0x703A38B2, payload1 := 0x004949D7, payload2 := 0 }

/-- V-CL-1. -/
theorem test_classic_ok : resultsOf 0 (loaded frameW2 68 true) = some resultsW2 := by decide +kernel

/-- V-CL-3. -/
theorem test_classic_bad_crc : resultsOf 0 (loaded frameCl3 68 true) = some {
    resultOnly 0x01333303 with
    check := 0x0000D6D7, payload0 := 0x703A38B2, payload1 := 0x004949D6 } := by decide +kernel

/-- V-EG-1. -/
theorem test_eg53ma4_ok : resultsOf 1 (loaded frameEg1 120 true) = some {
    result := 0x03101111, sensorId := 0x00ABCDEF, flags := 0x12345678, pressureRaw := 0x00000064
    pressure := 0x000009C4, temperature := 0x0000004B, check := 0x00002A2A
    payload0 := 0x12345678, payload1 := 0xABCDEF64, payload2 := 0x4B2A0000 } := by decide +kernel

/-- V-EG-2. -/
theorem test_eg53ma4_bad_checksum : resultsOf 1 (loaded frameEg2 120 true) = some {
    resultOnly 0x01333313 with
    check := 0x00002B2A, payload0 := 0x12345678, payload1 := 0xABCDEF64, payload2 := 0x4B2B0000 } := by
  decide +kernel

/-- V-SE-1. -/
theorem test_se3_ok : resultsOf 2 (loaded frameSe1 52 true) = some {
    result := 0x07312221, sensorId := 0x00123456, flags := 0x00000005, pressureRaw := 0x0000009C
    pressure := 0x00000139, temperature := 0, check := 0x00000101
    payload0 := 0xA2468AD3, payload1 := 0x90000000, payload2 := 0 } := by decide +kernel

/-- V-SE-4: a failing parity, not enforced. -/
theorem test_se3_parity_not_enforced : resultsOf 2 (loaded frameSe3 52 false) = some {
    result := 0x01312221, sensorId := 0x00123456, flags := 0x00000005, pressureRaw := 0x0000009C
    pressure := 0x00000139, temperature := 0, check := 0x00000001
    payload0 := 0xA2468AD3, payload1 := 0x80000000, payload2 := 0 } := by decide +kernel

/-- V-DS-1 and V-DS-7. -/
theorem test_reserved_bad_variant :
    resultsOf 3 (loaded frameW2 68 true) = some (resultOnly 0x00333334) ∧
    resultsOf 3 State.reset = some (resultOnly 0x00333334) := by decide +kernel

/-- V-CL-4, V-EG-4 and V-SE-5, at both lengths next to the accepted ones. -/
theorem test_lengths_next_to_the_accepted :
    resultsOf 0 (loaded frameW2 67 true) = some (resultOnly 0x00333302) ∧
    resultsOf 0 (loaded frameW2 69 true) = some (resultOnly 0x00333302) ∧
    resultsOf 1 (loaded frameEg1 119 true) = some (resultOnly 0x00333312) ∧
    resultsOf 1 (loaded frameEg1 121 true) = some (resultOnly 0x00333312) ∧
    resultsOf 2 (loaded frameSe1 51 true) = some (resultOnly 0x00333322) ∧
    resultsOf 2 (loaded frameSe1 54 true) = some (resultOnly 0x00333322) := by decide +kernel

/-! ### Host accesses: V-HI-1 to V-HI-10 -/

/-- V-HI-1 to V-HI-4. -/
theorem test_reads_after_reset :
    readWindow State.reset 0x00 = 0x00000001 ∧ readWindow State.reset 0x20 = 0x00333300 ∧
    readWindow State.reset 0x04 = 0 ∧ readWindow State.reset 0x80 = 0 := by decide

/-- V-HI-5: a misaligned read. -/
theorem test_misaligned_read : hostRead 0x22 4 State.reset = respond (.busError 0x22) State.reset := by
  decide

/-- V-HI-6: a one-byte write of CMD. -/
theorem test_narrow_write : hostWrite 0x04 1 0 State.reset = respond (.busError 0x04) State.reset := by
  decide

/-- V-HI-7 and V-HI-8: reserved bits ignore writes. -/
theorem test_reserved_bits :
    readWindow (hostWrite 0x0C 4 0xFFFF0044 State.reset) 0x0C = 0x00000044 ∧
    readWindow (hostWrite 0x00 4 0xFFFFFFFE State.reset) 0x00 = 0 := by decide

/-- V-HI-9: a write of a read-only register. -/
theorem test_read_only_write :
    hostWrite 0x20 4 0x12345678 State.reset = respond .done State.reset := by decide

/-- V-HI-10, its first case: BUSY and WERR. -/
theorem test_write_while_busy :
    readWindow (hostWrite 0x0C 4 5 (hostWrite 0x04 4 0 State.reset)) 0x08 = 0x00000005 := by decide

/-! ### Witnesses: states that meet the hypotheses of the obligations -/

/-- The reset state with one event scheduled, on the page after the first. -/
abbrev scheduled (es : List Event) (s : State) : State := { s with schedule := es, tfdPage := 1 }

/-- Two frames agree on a range of positions if they agree on it below a bound. -/
theorem sameBits_of_bounded {f g : Frame} {lo hi : Nat}
    (h : ∀ i < hi + 1, lo ≤ i → frameBit f i = frameBit g i) : sameBits f g lo hi :=
  fun i h₁ h₂ => h i (by omega) h₁

/-- The frame with bit `i` flipped, `i` below 64. -/
abbrev flipLow (f : Frame) (i : Nat) : Frame :=
  { f with
    w0 := f.w0 ^^^ (if i < 32 then (0x80000000 : Word) >>> i else 0)
    w1 := f.w1 ^^^ (if i < 32 then 0 else (0x80000000 : Word) >>> (i - 32)) }

/-- A flip is a flip if it is one at the 128 positions and no register is there above them. -/
theorem flipsBit_of_bounded {f g : Frame} {i : Nat} (hi : i < 128)
    (h : ∀ k < 128, frameBit g k = (frameBit f k ^^ decide (k = i))) : flipsBit f g i := by
  intro k
  by_cases hk : k < 128
  · exact h k hk
  · have e : ∀ f : Frame, frameBit f k = false := by
      intro f
      obtain ⟨m, hm⟩ : ∃ m, k / 32 = m + 4 := ⟨k / 32 - 4, by omega⟩
      simp [frameBit, hm, frameWord]
    rw [e, e, decide_eq_false (by omega)]
    rfl

theorem witness_DecodeAndEncodeAgree :
    canonicalCommandWord 0x00000000 = true ∧ canonicalCommandWord 0x00000003 = true ∧
    ([] : List Byte).length < 4 ∧ ([0, 0, 0] : List Byte).length < 4 := by decide

theorem witness_WordsAgreeingInVariantAreOneCommand :
    (0xFFFFFFFF : Word).extractLsb' 0 2 = (0x00000003 : Word).extractLsb' 0 2 := by decide

theorem witness_AcceptanceLatchesVariantAndSetsBusy :
    let s := scheduled [.hostWrite 0x104 4 2] State.reset
    let s' := scheduled [.hostWrite 0x104 4 2] (inFlight 0 State.reset)
    (s.schedule = [.hostWrite (tfdBase s + 0x04) 4 2] ∧ s.busy = false) ∧
    (s'.schedule = [.hostWrite (tfdBase s' + 0x04) 4 2] ∧ s'.busy = true) := by decide

theorem witness_StepRunsTheCommandInFlight :
    (inFlight 2 State.reset).busy = true ∧ (inFlight 2 State.reset).schedule = [] ∧
    decode (wordBytes (latchedWord (inFlight 2 State.reset))) = .ok (.decodeSe3, []) ∧
    (scheduled [.engine, .reset] (inFlight 2 State.reset)).schedule = [.engine, .reset] := by decide

theorem witness_CompletionCommitsDecodeOfTheRegisters :
    (inFlight 0 (loaded frameW2 68 true)).busy = true ∧ engineNext (inFlight 0 (loaded frameW2 68 true)) ∧
    engineNext (scheduled [.engine] (inFlight 0 (loaded frameW2 68 true))) := by decide

theorem witness_EngineIdlesWithoutACommand :
    State.reset.busy = false ∧ engineNext State.reset ∧ engineNext (scheduled [.engine] State.reset) := by
  decide

theorem witness_EveryWordWrittenToCmdIsDecodedByItsVariant :
    (scheduled [.hostWrite 0x104 4 0x10, .engine] State.reset).busy = false ∧
    (scheduled [.hostWrite 0x104 4 0x10, .engine] State.reset).schedule =
      [.hostWrite (tfdBase (scheduled [] State.reset) + 0x04) 4 0x10, .engine] := by decide

/-- Each branch of the three decoders' outcomes, and the lengths on either side of each. -/
theorem witness_decoder_branches :
    (crc8 0x07 0xF0 (frameBytes frameW2 4 7) = frameField frameW2 60 8 ∧
      crc8 0x07 0xF0 (frameBytes frameCl3 4 7) ≠ frameField frameCl3 60 8) ∧
    (BitVec.ofNat 8 (((frameBytes frameEg1 40 9).map BitVec.toNat).sum % 256) = frameField frameEg1 112 8 ∧
      BitVec.ofNat 8 (((frameBytes frameEg2 40 9).map BitVec.toNat).sum % 256) ≠
        frameField frameEg2 112 8) ∧
    (frameParity frameSe1 16 35 = frameBit frameSe1 51 ∧
      frameParity frameSe3 16 35 ≠ frameBit frameSe3 51) := by decide +kernel

theorem witness_ReservedCommandIsBadVariant :
    (0x00000003 : Word).extractLsb' 0 2 = 3 ∧ (0xFFFFFFFF : Word).extractLsb' 0 2 = 3 := by decide

theorem witness_WrongLengthIsFrameLengthMismatch :
    (loaded frameW2 67 true).lenBits ≠ 68 ∧ (loaded frameW2 69 true).lenBits ≠ 68 ∧
    (loaded frameEg1 119 true).lenBits ≠ 120 ∧ (loaded frameEg1 121 true).lenBits ≠ 120 ∧
    ((loaded frameSe1 51 true).lenBits ≠ 52 ∧ (loaded frameSe1 51 true).lenBits ≠ 53) ∧
    ((loaded frameSe1 54 true).lenBits ≠ 52 ∧ (loaded frameSe1 54 true).lenBits ≠ 53) := by decide

theorem witness_CompletionFrame :
    (∃ t, exec .decodeClassic (loaded frameW2 68 true) = .next t) ∧
    ∀ off ∈ ([0x00, 0x04, 0x07, 0x0C, 0x1F, 0x48, 0xFF] : List (BitVec 8)),
      off &&& 0xFC ≠ 0x08 ∧ (off < 0x20 ∨ 0x48 ≤ off) :=
  ⟨⟨_, rfl⟩, by decide⟩

/-- One input for each clause of the order of failures. -/
theorem witness_FirstFailureDecides :
    (acceptedLength 0 67 = false ∧ acceptedLength 1 121 = false ∧ acceptedLength 2 54 = false) ∧
    (acceptedLength 0 68 = true ∧ acceptedLength 1 120 = true ∧ acceptedLength 2 52 = true ∧
      acceptedLength 2 53 = true) ∧
    (decodeFrame 0 68 frameCl3 true).calcCode ≠ (decodeFrame 0 68 frameCl3 true).recvCode ∧
    (decodeFrame 0 68 frameW2 true).calcCode = (decodeFrame 0 68 frameW2 true).recvCode ∧
    (decodeFrame 2 52 frameSe3 true).calcCode ≠ (decodeFrame 2 52 frameSe3 true).recvCode ∧
    (decodeFrame 2 52 frameSe3 false).calcCode ≠ (decodeFrame 2 52 frameSe3 false).recvCode := by
  decide +kernel

/-- Both lengths; each clause's frame is in `witness_decoder_branches`. -/
theorem witness_ParityIsEnforcedByCtrl :
    ((loaded frameSe3 52 true).lenBits = 52 ∧ (loaded frameSe3 53 false).lenBits = 53) ∧
    frameParity (loaded frameSe3 52 true).frame 16 35 ≠ frameBit (loaded frameSe3 52 true).frame 51 ∧
    (loaded frameSe3 52 true).se3ParityEn = true ∧ (loaded frameSe3 53 false).se3ParityEn = false ∧
    frameParity (loaded frameSe1 52 true).frame 16 35 = frameBit (loaded frameSe1 52 true).frame 51 := by
  decide +kernel

/-- Two states with equal inputs that differ elsewhere. -/
theorem witness_EqualInputsCommitEqualOutcomes :
    let s := inFlight 0 (loaded frameW2 68 true)
    let s' : State := { s with werr := true, results := resultOnly 0x00333334 }
    s.busy = true ∧ s'.busy = true ∧ engineNext s ∧ engineNext s' ∧ s.pendingVar = s'.pendingVar ∧
    s.se3ParityEn = s'.se3ParityEn ∧ s.lenBits = s'.lenBits ∧ s.frame = s'.frame ∧ s ≠ s' := by decide

/-- V-CL-9, V-EG-6 and V-SE-11 beside V-CL-1, V-EG-1 and V-SE-1: different frames, the same read bits. -/
theorem witness_DiscardedAndTrailingBitsAreNotRead :
    sameBits frameW2 (frame 0xF703A38B 0x2004949D 0x7FFFFFFF 0xFFFFFFFF) 4 67 ∧
    sameBits frameEg1 (frame 0xFFFFFFFF 0xFF123456 0x78ABCDEF 0x644B2AFF) 40 119 ∧
    sameBits frameSe1 (frame 0x0000A246 0x8AD39F00 0 0) 16 51 :=
  ⟨sameBits_of_bounded (by decide +kernel), sameBits_of_bounded (by decide +kernel),
    sameBits_of_bounded (by decide +kernel)⟩

/-- V-SE-2 beside V-SE-1: the 53rd bit differs. -/
theorem witness_Se3LengthsGiveEqualOutcomes :
    sameBits frameSe1 (frame 0xFFFFA246 0x8AD39800 0 0) 0 51 ∧
    frameBit frameSe1 52 ≠ frameBit (frame 0xFFFFA246 0x8AD39800 0 0) 52 :=
  ⟨sameBits_of_bounded (by decide +kernel), by decide⟩

/-- A field of 36 bits: its last bit, and the first position past it in the last byte; and an empty
field. -/
theorem witness_ExtractIsLeftJustified :
    extractPre 52 16 36 ∧ 4 < (36 + 7) / 8 ∧ 8 * 4 + 3 < 36 ∧ ¬ 8 * 4 + 4 < 36 ∧
    extractPre 128 0 128 ∧ extractPre 0 0 0 := by decide

theorem witness_ExtractRefusesPastTheFrame :
    67 < 4 + 64 ∧ (4 + 64 ≤ 68 ∧ 68 ≤ 128) ∧ (0 + 128 ≤ 128 ∧ 128 ≤ 128) ∧ 128 < 1 + 128 := by decide

theorem witness_AnotherCrcByteIsRejected :
    (∃ t, exec .decodeClassic (loaded frameW2 68 true) = .next t ∧ resultCode t.results.result = 1) ∧
    (loaded frameW2 68 true).lenBits = 68 ∧
    sameBits frameW2 frameCl3 4 59 ∧ frameField frameCl3 60 8 ≠ frameField frameW2 60 8 :=
  ⟨⟨_, rfl, by decide +kernel⟩, rfl, sameBits_of_bounded (by decide +kernel), by decide +kernel⟩

/-- The deltas 1 and 255. -/
theorem witness_MutatedChecksumIsRejected :
    (∃ t, exec .decodeEg53ma4 (loaded frameEg1 120 true) = .next t ∧ resultCode t.results.result = 1) ∧
    (loaded frameEg1 120 true).lenBits = 120 ∧ sameBits frameEg1 frameEg2 40 111 ∧
    frameField frameEg2 112 8 = frameField frameEg1 112 8 + 1 ∧
    sameBits frameEg1 { frameEg1 with w3 := 0x644B2900 } 40 111 ∧
    frameField { frameEg1 with w3 := 0x644B2900 } 112 8 = frameField frameEg1 112 8 + 255 :=
  ⟨⟨_, rfl, by decide +kernel⟩, rfl, sameBits_of_bounded (by decide +kernel), by decide +kernel,
    sameBits_of_bounded (by decide +kernel), by decide +kernel⟩

/-- The first data bit and the parity bit, and a second flip. -/
theorem witness_OneFlippedBitTurnsTheParityVerdict :
    (loaded frameSe1 52 true).lenBits = 52 ∧ (loaded frameSe1 53 true).lenBits = 53 ∧
    flipsBit frameSe1 (flipLow frameSe1 16) 16 ∧ flipsBit frameSe1 (flipLow frameSe1 51) 51 ∧
    flipsBit (flipLow frameSe1 16) (flipLow (flipLow frameSe1 16) 51) 51 :=
  ⟨rfl, rfl, flipsBit_of_bounded (by decide) (by decide +kernel),
    flipsBit_of_bounded (by decide) (by decide +kernel),
    flipsBit_of_bounded (by decide) (by decide +kernel)⟩

/-- The first and the last word of the window. -/
theorem witness_ReadAnswersTheRegister :
    let s := scheduled [.hostRead 0x100 4] State.reset
    let s' := scheduled [.hostRead 0x1FC 4] State.reset
    ((0x00 : BitVec 8) &&& 3 = 0 ∧ s.schedule = [.hostRead (tfdBase s + (0x00 : BitVec 8).toNat) 4]) ∧
    ((0xFC : BitVec 8) &&& 3 = 0 ∧ s'.schedule = [.hostRead (tfdBase s' + (0xFC : BitVec 8).toNat) 4]) := by
  decide

theorem witness_WindowReadsAsTheRegisterMap :
    (0x48 : BitVec 8) ≤ 0x48 ∧ (0x48 : BitVec 8) ≤ 0xFF := by decide

theorem witness_WriteHasExactlyItsEffect :
    let s := scheduled [.hostWrite 0x144 4 7] State.reset
    ((0x44 : BitVec 8) &&& 3 = 0 ∧
      s.schedule = [.hostWrite (tfdBase s + (0x44 : BitVec 8).toNat) 4 7]) ∧
    (0x20 : BitVec 8) ≤ 0x20 ∧ (0x20 : BitVec 8) ≤ 0xFF := by decide

theorem witness_WritesWhileBusyOnlySetWerr :
    ∀ off ∈ ([0x00, 0x04, 0x0C, 0x10, 0x14, 0x18, 0x1C] : List (BitVec 8)),
      let s := scheduled [.hostWrite (0x100 + off.toNat) 4 3] (inFlight 0 State.reset)
      s.busy = true ∧ s.schedule = [.hostWrite (tfdBase s + off.toNat) 4 3] := by decide

/-- The first and the last byte of the window by a wrong width, and V-HI-5's misaligned read. -/
theorem witness_RefusedAccessAnswersBusError :
    let s := scheduled [] State.reset
    (tfdBase s ≤ 0x100 ∧ 0x100 ≤ tfdBase s + 0xFF ∧ (1 ≠ 4 ∨ (0x100 - tfdBase s) % 4 ≠ 0)) ∧
    (tfdBase s ≤ 0x1FF ∧ 0x1FF ≤ tfdBase s + 0xFF ∧ (4 ≠ 4 ∨ (0x1FF - tfdBase s) % 4 ≠ 0)) ∧
    (tfdBase s ≤ 0x122 ∧ 0x122 ≤ tfdBase s + 0xFF ∧ (4 ≠ 4 ∨ (0x122 - tfdBase s) % 4 ≠ 0)) := by decide

/-- The addresses next to the window on either side. -/
theorem witness_AccessOutsideTheWindowIsNotSeen :
    let s := scheduled [] State.reset
    (0xFF < tfdBase s ∨ tfdBase s + 0xFF < 0xFF) ∧ (0x200 < tfdBase s ∨ tfdBase s + 0xFF < 0x200) := by
  decide

/-- WERR cleared by a reset and by a write of STATUS; WERR set by an ignored write. -/
theorem witness_WerrIsSticky :
    (∃ t, step (scheduled [.reset] { State.reset with werr := true }) = .next t ∧ t.werr = false) ∧
    (∃ t, step (scheduled [.hostWrite 0x108 4 4] { State.reset with werr := true }) = .next t ∧
      t.werr = false) ∧
    (∃ t, step (scheduled [.hostWrite 0x104 4 0] (inFlight 1 State.reset)) = .next t ∧ t.werr = true) :=
  ⟨⟨_, rfl, by decide⟩, ⟨_, rfl, by decide⟩, ⟨_, rfl, by decide⟩⟩

theorem witness_WritesOtherThanCmdAreIdempotent :
    ∀ off ∈ ([0x00, 0x03, 0x08, 0xFF] : List (BitVec 8)), off &&& 0xFC ≠ 0x04 := by decide

/-- BUSY = 0, whatever commands came before and are to come. -/
theorem witness_OutcomesDoNotDependOnOrder :
    (loaded frameW2 68 true).busy = false ∧
    (commandEvents (tfdBase (loaded frameW2 68 true)) [2, 0]).length = 4 := by decide

theorem witness_PseudoInstructionsStandForTheirAccesses : State.reset.busy = false := by decide

/-- A completion step and a reset step that change the result registers. -/
theorem witness_ResultsChangeOnlyAtCompletionOrReset :
    (∃ t, step (inFlight 3 State.reset) = .next t ∧ t.results ≠ (inFlight 3 State.reset).results) ∧
    (∃ t, step (scheduled [.reset] { State.reset with results := resultOnly 0x00333334 }) = .next t ∧
      t.results ≠ resultOnly 0x00333334) :=
  ⟨⟨_, rfl, by decide⟩, ⟨_, rfl, by decide⟩⟩

theorem witness_InputsAreFrozenWhileBusy :
    let s := scheduled [.hostWrite 0x110 4 1] (inFlight 0 State.reset)
    s.busy = true ∧ s.schedule.head? ≠ some .reset ∧ ∃ t, step s = .next t :=
  ⟨rfl, by decide, _, rfl⟩

/-- A schedule of reads, writes and turns of the engine without a write to CMD. -/
theorem witness_OutcomeStaysUntilTheNextCommand :
    let s := scheduled [.hostRead 0x120 4, .hostWrite 0x10C 4 5, .engine]
      { State.reset with results := resultOnly 0x00333334, done := true, pendingVar := 3 }
    s.busy = false ∧ s.done = true ∧
    ∀ e ∈ s.schedule, e ≠ .reset ∧ ∀ v, e ≠ .hostWrite (tfdBase s + 0x04) 4 v :=
  ⟨rfl, rfl, by
    intro e he
    simp only [List.mem_cons, List.not_mem_nil, or_false] at he
    rcases he with rfl | rfl | rfl
    · exact ⟨by decide, fun v => by simp⟩
    · exact ⟨by decide, fun v h => by injection h with h; exact absurd h (by decide)⟩
    · exact ⟨by decide, fun v => by simp⟩⟩

theorem witness_RacingFrameWriteDoesNotChangeTheOutcome :
    (inFlight 0 (loaded frameW2 68 true)).busy = true := by decide

theorem witness_ResetStepRestoresTheResetState :
    (scheduled [.reset] (inFlight 0 (loaded frameW2 68 true))).schedule = [.reset] := by decide

theorem witness_ResetValuesOfTheRegisters :
    ((0x10 : BitVec 8) ≤ 0x1F ∧ (0x1F : BitVec 8) < 0x20) ∧ (0x24 : BitVec 8) ≤ 0xFF := by decide

theorem witness_DecodeRightAfterResetIsLengthMismatch :
    (0x00000000 : Word).extractLsb' 0 2 ≠ 3 ∧ (0xFFFFFFFE : Word).extractLsb' 0 2 ≠ 3 := by decide

/-- A state between commands, after V-CL-1's reading, meets the invariant and has a next state. -/
theorem witness_EveryStepKeepsTheInvariant :
    let s := scheduled [.hostWrite 0x104 4 1] { State.reset with results := resultsW2, done := true }
    s.Inv ∧ ∃ t, step s = .next t := by
  refine ⟨⟨⟨?_, ?_, ?_, by decide, ?_⟩, by decide, by decide, by decide⟩, _, rfl⟩
  · unfold resultWordLegal
    decide
  · unfold Results.emptyWhereDue
    decide
  · unfold Results.withinWidths
    decide
  · unfold Results.checkOfPayload
    decide +kernel

/-- Words that no commit writes: an outcome without an integrity step has no CHK_VALID
(R35), an OK outcome has its variant's units (R31), and variant 3 has no other outcome than BadVariant. -/
theorem test_result_words_refused :
    ¬ resultWordLegal 0x01333302 ∧ ¬ resultWordLegal 0x01333334 ∧ ¬ resultWordLegal 0x03110001 ∧
    ¬ resultWordLegal 0x03201111 ∧ ¬ resultWordLegal 0x00333332 ∧ ¬ resultWordLegal 0x01333333 := by
  refine ⟨?_, ?_, ?_, ?_, ?_, ?_⟩ <;>
  · unfold resultWordLegal
    decide

/-- With nothing scheduled, and behind three host accesses. -/
theorem witness_CommandInFlightCompletesWithItsOwnInputs :
    ((inFlight 0 State.reset).busy = true ∧ Event.reset ∉ (inFlight 0 State.reset).schedule) ∧
    Event.reset ∉ (scheduled [.hostRead 0x108 4, .hostWrite 0x110 4 0, .hostRead 0x108 4]
      (inFlight 0 State.reset)).schedule := by decide

end Sys2Proof.Tests
end

/-! SUPPORT. TFD_BASE over a step: the platform fixes it once (R6, log entry 1), so nothing that happens
at a step moves it. With `step_cases`, which answers a next state from every state (R210), this is the
obligation on what a step answers. -/

namespace Sys2Proof.Machine

/-- TFD_BASE is the platform's choice of page and nothing else (R6, log entry 1). -/
theorem tfdBase_eq_of_tfdPage_eq {s t : State} (h : t.tfdPage = s.tfdPage) : tfdBase t = tfdBase s :=
  congrArg (Config.windowBytes * ·) h

/-- TFD_BASE is a multiple of the window's size (R6). -/
theorem tfdBase_mod_256 (s : State) : tfdBase s % 256 = 0 :=
  Nat.mul_mod_right 256 s.tfdPage

/-- No register of the window holds TFD_BASE, so no write moves it (R6, R54). -/
@[simp] theorem writeWindow_tfdPage (off : BitVec 8) (v : Word) (s : State) :
    (writeWindow off v s).tfdPage = s.tfdPage := by
  rcases writeWindow_cases off v s with h | ⟨-, h⟩ | ⟨-, h⟩ | h | ⟨-, h⟩ | ⟨-, h⟩ | ⟨-, k, h⟩ <;>
    simp [h]

/-- No event moves TFD_BASE; the reset step keeps it too (R6, R240, log entry 1). -/
theorem StepCase.tfdPage_eq {s t : State} {e : Event} (h : StepCase s e t) : t.tfdPage = s.tfdPage := by
  cases h with
  | completes _ => exact complete_tfdPage _ _
  | idles _ => rfl
  | resets => exact resetTfd_tfdPage _
  | reads _ _ r => exact respond_tfdPage r _
  | refuses _ _ _ r => exact respond_tfdPage r _
  | writes off v _ => exact (respond_tfdPage _ _).trans (writeWindow_tfdPage off v s)

/-- Settles O48: a step is the performing of one event, which always answers (`step_cases`) and never
moves TFD_BASE. -/
theorem everyStepAnswersANextState : Obligations.EveryStepAnswersANextState := by
  unfold Obligations.EveryStepAnswersANextState
  intro s
  obtain ⟨t, hstep, hcase⟩ := step_cases s
  have hpage : t.tfdPage = s.tfdPage := hcase.tfdPage_eq.trans (afterFetch_tfdPage s)
  exact ⟨t, hstep, tfdBase_eq_of_tfdPage_eq hpage, tfdBase_mod_256 s⟩

end Sys2Proof.Machine

/-! SUPPORT. What a commit leaves, read back field by field (R29, R35, R36, R94), and from that the clauses
of `Results.Legal` as conditions on the committed outcome. -/

namespace Sys2Proof.Machine

section
variable (o : DecodeOutcome)
@[simp] theorem commit_result : (commit o).result = resultWord o := rfl
@[simp] theorem commit_sensorId : (commit o).sensorId = o.sensorId := rfl
@[simp] theorem commit_flags : (commit o).flags = o.flags := rfl
@[simp] theorem commit_pressureRaw : (commit o).pressureRaw = zext32 o.praw := rfl
@[simp] theorem commit_pressure : (commit o).pressure = zext32 o.pressure := rfl
@[simp] theorem commit_temperature : (commit o).temperature = tc32 o.temperature := rfl
@[simp] theorem commit_check : (commit o).check = zext32 (o.recvCode ++ o.calcCode) := rfl

/-- A bit of the RESULT word, by the fields laid out in it (R94). -/
theorem resultWord_getLsbD (i : Nat) : (resultWord o).getLsbD i =
    ((zext32 o.code.bits).getLsbD i || (zext32 o.var <<< 4).getLsbD i ||
      (zext32 o.model.bits <<< 8).getLsbD i || (zext32 o.integ.bits <<< 12).getLsbD i ||
      (zext32 o.punit.bits <<< 16).getLsbD i || (zext32 o.tunit.bits <<< 20).getLsbD i ||
      (zext32 (BitVec.ofBool o.chkValid) <<< 24).getLsbD i ||
      (zext32 (BitVec.ofBool o.chkPass) <<< 25).getLsbD i ||
      (zext32 (BitVec.ofBool o.parEnf) <<< 26).getLsbD i) := by
  simp only [resultWord, BitVec.getLsbD_or]

@[simp] theorem resultCode_resultWord : resultCode (resultWord o) = o.code.bits := by
  ext i hi
  simp only [resultCode, BitVec.getElem_extractLsb', resultWord_getLsbD]
  interval_cases i <;> simp

@[simp] theorem resultVar_resultWord : resultVar (resultWord o) = o.var := by
  ext i hi
  simp only [resultVar, BitVec.getElem_extractLsb', resultWord_getLsbD]
  interval_cases i <;> simp

@[simp] theorem resultPunit_resultWord : resultPunit (resultWord o) = o.punit.bits := by
  ext i hi
  simp only [resultPunit, BitVec.getElem_extractLsb', resultWord_getLsbD]
  interval_cases i <;> simp

@[simp] theorem resultTunit_resultWord : resultTunit (resultWord o) = o.tunit.bits := by
  ext i hi
  simp only [resultTunit, BitVec.getElem_extractLsb', resultWord_getLsbD]
  interval_cases i <;> simp

@[simp] theorem resultChkValid_resultWord : resultChkValid (resultWord o) = o.chkValid := by
  simp only [resultChkValid, resultWord_getLsbD]
  simp

@[simp] theorem resultChkPass_resultWord : resultChkPass (resultWord o) = o.chkPass := by
  simp only [resultChkPass, resultWord_getLsbD]
  simp

/-- CHECK.CALC reads back from the word a commit makes of the two codes (R36). -/
@[simp] theorem checkCalc_zext32_append (recvCode calcCode : Byte) :
    checkCalc (zext32 (recvCode ++ calcCode)) = calcCode := by
  ext i hi
  simp only [checkCalc, BitVec.getElem_extractLsb', BitVec.getLsbD_setWidth, BitVec.getLsbD_append]
  simp [hi, show i < 32 by omega, BitVec.getLsbD_eq_getElem]

/-- CHECK.RECV reads back from the word a commit makes of the two codes (R36). -/
@[simp] theorem checkRecv_zext32_append (recvCode calcCode : Byte) :
    checkRecv (zext32 (recvCode ++ calcCode)) = recvCode := by
  ext i hi
  simp only [checkRecv, BitVec.getElem_extractLsb', BitVec.getLsbD_setWidth, BitVec.getLsbD_append]
  simp [show 8 + i < 32 by omega, BitVec.getLsbD_eq_getElem, hi]

/-- No outcome writes CODE 0, which is the reset word's (R29). -/
theorem Code.bits_ne_zero (c : Code) : c.bits ≠ 0 := by cases c <;> decide

/-- The codes of the pressure units are distinct (R31). -/
theorem PressureUnit.bits_injective : Function.Injective PressureUnit.bits := by
  intro u u'
  cases u <;> cases u' <;> decide

/-- The codes of the temperature units are distinct (R31). -/
theorem TemperatureUnit.bits_injective : Function.Injective TemperatureUnit.bits := by
  intro u u'
  cases u <;> cases u' <;> decide

/-- Widening keeps a value below the narrow width's bound. -/
theorem zext32_toNat_lt {n : Nat} (v : BitVec n) : (zext32 v).toNat < 2 ^ n := by
  rw [BitVec.toNat_setWidth]
  exact Nat.lt_of_le_of_lt (Nat.mod_le _ _) v.isLt

theorem zext32_toNat {n : Nat} (v : BitVec n) (h : n ≤ 32) : (zext32 v).toNat = v.toNat :=
  BitVec.toNat_setWidth_of_le h

/-- A small integer is its own two's-complement reading. -/
theorem tc32_toInt {i : Int} (hlo : -50 ≤ i) (hhi : i ≤ 255) : (tc32 i).toInt = i := by
  rw [BitVec.toInt_ofInt]
  exact Int.bmod_eq_of_le (by omega) (by omega)

variable {o}

/-- The twelve RESULT words that commits write: a failure before the integrity step by variant, an
integrity failure by variant, and an OK outcome by variant and parity verdict (R29, R35, R94). -/
def committedWords : List Word :=
  [0x00333302, 0x00333312, 0x00333322, 0x00333334, 0x01333303, 0x01333313, 0x05333323,
    0x03000001, 0x03101111, 0x01312221, 0x03312221, 0x07312221]

theorem resultWordLegal_of_mem_committedWords {w : Word} (h : w ∈ committedWords) :
    resultWordLegal w := by
  simp only [committedWords, List.mem_cons, List.not_mem_nil, or_false] at h
  unfold resultWordLegal
  rcases h with rfl | rfl | rfl | rfl | rfl | rfl | rfl | rfl | rfl | rfl | rfl | rfl <;> decide

/-- What a commit leaves empty is what the outcome leaves empty (R32 to R37). -/
theorem commit_emptyWhereDue (hreading : o.code ≠ .ok → (commit o).noReading)
    (hdiagnostics : o.chkValid = false → (commit o).noDiagnostics)
    (hpass : o.chkValid = true → (o.chkPass = true ↔ o.calcCode = o.recvCode)) :
    (commit o).emptyWhereDue := by
  refine ⟨fun h => ?_, fun h => hreading ?_, fun h => hdiagnostics ?_, fun h => ?_⟩
  · exact absurd (by simpa using h) o.code.bits_ne_zero
  · rw [commit_result, resultCode_resultWord] at h
    exact fun hok => h (by rw [hok]; rfl)
  · simpa using h
  · simpa using hpass (by simpa using h)

/-- A payload of ten bytes of which the variant fills no more than it extracts: eight bytes for Classic,
36 bits for SE3 (R37, R97). -/
structure PayloadFits (v : VariantCode) (pl : List Byte) : Prop where
  ten : pl.length = 10
  short : v ≠ 1 → payloadByte pl 8 = 0 ∧ payloadByte pl 9 = 0
  nibble : v = 2 → (∃ n : BitVec 4, payloadByte pl 4 = n ++ 0#4) ∧ payloadByte pl 5 = 0 ∧
    payloadByte pl 6 = 0 ∧ payloadByte pl 7 = 0

/-- The diagnostics of a reached integrity step: a payload of its variant, and the codes computed over it
and received in it (R36, R153, R173, R193, R195). -/
structure Diagnostics (v : VariantCode) (calcCode recvCode : Byte) (pl : List Byte) : Prop
    extends PayloadFits v pl where
  classic : v = 0 → calcCode = crc8 0x07 0xF0 (pl.take 7) ∧ recvCode = payloadByte pl 7
  eg53ma4 : v = 1 → calcCode = sum8 (pl.take 9) ∧ recvCode = payloadByte pl 9
  se3 : v = 2 → calcCode = bitCode (xpar (pl.take 4 ++ [payloadByte pl 4 &&& 0xE0])) ∧
    recvCode = bitCode ((payloadByte pl 4).getLsbD 4)

/-- The payload bytes that a commit leaves are the outcome's, where these are ten (R37, R94). -/
theorem payloadBytes_commit_of_length (h : o.pl.length = 10) : (commit o).payloadBytes = o.pl := by
  match hp : o.pl, h with
  | [_, _, _, _, _, _, _, _, _, _], _ => rw [payloadBytes_commit o hp, hp]

/-- CHECK of a commit holds the codes of the payload it reports (R36). -/
theorem commit_checkOfPayload (hd : Diagnostics o.var o.calcCode o.recvCode o.pl) :
    (commit o).checkOfPayload := by
  unfold Results.checkOfPayload
  intro _
  rw [payloadBytes_commit_of_length hd.ten]
  simp only [commit_result, commit_check, resultVar_resultWord, checkCalc_zext32_append,
    checkRecv_zext32_append]
  exact ⟨hd.classic, hd.eg53ma4, hd.se3⟩

theorem commit_payload2_eq_zero (hfits : PayloadFits o.var o.pl) (hv : o.var ≠ 1) :
    (commit o).payload2 = 0 := by
  obtain ⟨h8, h9⟩ := hfits.short hv
  simp only [commit, h8, h9]
  decide

theorem commit_payload1_low_eq_zero (hfits : PayloadFits o.var o.pl) (hv : o.var = 2) :
    (commit o).payload1.extractLsb' 0 28 = 0 := by
  obtain ⟨⟨n, h4⟩, h5, h6, h7⟩ := hfits.nibble hv
  have low : ∀ n : BitVec 4,
      (n ++ 0#4 ++ (0 : Byte) ++ (0 : Byte) ++ (0 : Byte)).extractLsb' 0 28 = 0 := by decide
  simpa only [commit, h4, h5, h6, h7] using low n

/-- The registers that a commit leaves are as wide as the outcome's own fields (R32, R33, R36, R37). -/
theorem commit_withinWidths (hid : o.sensorId.toNat < 2 ^ 28)
    (hid24 : o.var ≠ 0 → o.sensorId.toNat < 2 ^ 24) (hflags8 : o.var = 0 → o.flags.toNat < 2 ^ 8)
    (hflags3 : o.var = 2 → o.flags.toNat < 2 ^ 3) (hfits : PayloadFits o.var o.pl) :
    (commit o).withinWidths := by
  unfold Results.withinWidths
  rw [commit_result, resultVar_resultWord]
  exact ⟨hid, hid24, hflags8, hflags3, zext32_toNat_lt _, zext32_toNat_lt _,
    BitVec.extractLsb'_append_eq_right, commit_payload2_eq_zero hfits,
    commit_payload1_low_eq_zero hfits⟩

/-- PRESSURE and TEMPERATURE of a commit are in the outcome's units (R31, R33, R34). -/
theorem commit_inUnits (hmbar : o.punit = .mbar → o.pressure.toNat = 25 * o.praw.toNat)
    (hpsi : o.punit = .tenthPsi → o.pressure.toNat = 2 * o.praw.toNat + 1)
    (hcelsius : o.tunit = .celsius → -50 ≤ o.temperature ∧ o.temperature ≤ 205)
    (hfahrenheit : o.tunit = .fahrenheit → 0 ≤ o.temperature ∧ o.temperature ≤ 255)
    (hnone : o.tunit = .none → o.temperature = 0) : (commit o).inUnits := by
  unfold Results.inUnits
  rw [commit_result, resultPunit_resultWord, resultTunit_resultWord, commit_pressure,
    commit_pressureRaw, commit_temperature, zext32_toNat o.pressure (by decide),
    zext32_toNat o.praw (by decide)]
  refine ⟨fun h => hmbar (PressureUnit.bits_injective h), fun h => hpsi (PressureUnit.bits_injective h),
    fun h => ?_, fun h => ?_, fun h => ?_⟩
  · obtain ⟨hlo, hhi⟩ := hcelsius (TemperatureUnit.bits_injective h)
    rw [tc32_toInt hlo (by omega)]
    exact ⟨hlo, hhi⟩
  · obtain ⟨hlo, hhi⟩ := hfahrenheit (TemperatureUnit.bits_injective h)
    rw [tc32_toInt (by omega) hhi]
    exact ⟨hlo, hhi⟩
  · rw [hnone (TemperatureUnit.bits_injective h)]
    rfl

end

end Sys2Proof.Machine

/-! SUPPORT. Each decoder's outcome record once (R150 to R201): its reading, and the failed integrity
step it returns otherwise; and what a commit of either leaves is legal. -/

namespace Sys2Proof.Machine

/-- What an OK outcome commits is legal where its verdict, widths, units and diagnostics are. -/
theorem commit_legal_of_ok {o : DecodeOutcome} (hcode : o.code = .ok) (hvalid : o.chkValid = true)
    (hword : resultWord o ∈ committedWords) (hpass : o.chkPass = true ↔ o.calcCode = o.recvCode)
    (hwidths : (commit o).withinWidths) (hunits : (commit o).inUnits)
    (hdiag : Diagnostics o.var o.calcCode o.recvCode o.pl) : (commit o).Legal := by
  have hempty : (commit o).emptyWhereDue :=
    commit_emptyWhereDue (fun h => absurd hcode h) (fun h => by simp [hvalid] at h) (fun _ => hpass)
  exact ⟨resultWordLegal_of_mem_committedWords hword, hempty, hwidths, hunits,
    commit_checkOfPayload hdiag⟩

/-- An outcome without a reading has the empty value of every reading register and no unit (R97). -/
structure NoReading (o : DecodeOutcome) : Prop where
  sensorId : o.sensorId = 0
  flags : o.flags = 0
  praw : o.praw = 0
  pressure : o.pressure = 0
  temperature : o.temperature = 0
  punit : o.punit = .none
  tunit : o.tunit = .none

theorem noReading_fail (c : Code) (v : VariantCode) : NoReading (fail c v) :=
  ⟨rfl, rfl, rfl, rfl, rfl, rfl, rfl⟩

theorem noReading_failIntegrity (v : VariantCode) (calcCode recvCode : Byte) (pl : List Byte)
    (pe : Bool) : NoReading (failIntegrity v calcCode recvCode pl pe) :=
  ⟨rfl, rfl, rfl, rfl, rfl, rfl, rfl⟩

section
variable {o : DecodeOutcome} (hr : NoReading o)
include hr

theorem NoReading.commit_noReading : (commit o).noReading := by
  refine ⟨hr.sensorId, hr.flags, ?_, ?_, ?_⟩
  · rw [commit_pressureRaw, hr.praw]; rfl
  · rw [commit_pressure, hr.pressure]; rfl
  · rw [commit_temperature, hr.temperature]; rfl

theorem NoReading.commit_inUnits : (commit o).inUnits :=
  Machine.commit_inUnits (by simp [hr.punit]) (by simp [hr.punit]) (by simp [hr.tunit])
    (by simp [hr.tunit]) (fun _ => hr.temperature)

theorem NoReading.commit_withinWidths (hfits : PayloadFits o.var o.pl) :
    (commit o).withinWidths := by
  have hid : o.sensorId.toNat = 0 := by rw [hr.sensorId]; rfl
  have hflags : o.flags.toNat = 0 := by rw [hr.flags]; rfl
  exact Machine.commit_withinWidths (by omega) (by omega) (by omega) (by omega) hfits

end

/-- What a failed integrity step commits is legal: its codes differ and it has no reading (R97, R213). -/
theorem commit_failIntegrity_legal {v : VariantCode} {calcCode recvCode : Byte} {pl : List Byte}
    {pe : Bool} (hword : resultWord (failIntegrity v calcCode recvCode pl pe) ∈ committedWords)
    (hdiffer : calcCode ≠ recvCode) (hdiag : Diagnostics v calcCode recvCode pl) :
    (commit (failIntegrity v calcCode recvCode pl pe)).Legal := by
  have hr := noReading_failIntegrity v calcCode recvCode pl pe
  have hempty : (commit (failIntegrity v calcCode recvCode pl pe)).emptyWhereDue :=
    commit_emptyWhereDue (fun _ => hr.commit_noReading) (fun h => by cases h)
      (fun _ => iff_of_false Bool.false_ne_true hdiffer)
  exact ⟨resultWordLegal_of_mem_committedWords hword, hempty,
    hr.commit_withinWidths hdiag.toPayloadFits, hr.commit_inUnits, commit_checkOfPayload hdiag⟩

/-- A failure without extraction reports no payload byte (R97, R104, R212). -/
theorem payloadFits_fail (c : Code) (v : VariantCode) : PayloadFits v (fail c v).pl where
  ten := rfl
  short _ := ⟨rfl, rfl⟩
  nibble _ := ⟨⟨0, (by decide : (0 : Byte) = 0#4 ++ 0#4)⟩, rfl, rfl, rfl⟩

/-- What a failure without extraction commits is legal where its code is its variant's (R104, R212). -/
theorem commit_fail_legal {c : Code} {v : VariantCode}
    (hword : resultWord (fail c v) ∈ committedWords) : (commit (fail c v)).Legal := by
  have hr := noReading_fail c v
  have hdiagnostics : (commit (fail c v)).noDiagnostics := by
    simp [Results.noDiagnostics, commit, fail]
  have hempty : (commit (fail c v)).emptyWhereDue :=
    commit_emptyWhereDue (fun _ => hr.commit_noReading) (fun _ => hdiagnostics)
      (fun h => by cases h)
  have hcheck : (commit (fail c v)).checkOfPayload := by
    intro h
    rw [commit_result, resultChkValid_resultWord] at h
    cases h
  exact ⟨resultWordLegal_of_mem_committedWords hword, hempty,
    hr.commit_withinWidths (payloadFits_fail c v), hr.commit_inUnits, hcheck⟩

/-- The outcome of a Classic payload whose CRC matches (R154 to R158). -/
def classicReading (b : List Byte) : DecodeOutcome :=
  { code := .ok, var := 0, model := .schrader, integ := .crc, punit := .mbar, tunit := .celsius
    chkValid := true, chkPass := true
    flags := zext32 ((payloadByte b 0).extractLsb' 0 4 ++ (payloadByte b 1).extractLsb' 4 4)
    sensorId := zext32 ((payloadByte b 1).extractLsb' 0 4 ++ payloadByte b 2 ++ payloadByte b 3 ++
      payloadByte b 4)
    praw := payloadByte b 5
    pressure := BitVec.ofNat 16 (25 * (payloadByte b 5).toNat)
    temperature := ((payloadByte b 6).toNat : Int) - 50
    calcCode := crc8 0x07 0xF0 (b.take 7), recvCode := payloadByte b 7, pl := b ++ [0, 0] }

/-- Everything the Classic integrity step can do (R153, R154). -/
theorem unpackClassic_cases (b : List Byte) :
    (crc8 0x07 0xF0 (b.take 7) = payloadByte b 7 ∧ unpackClassic b = classicReading b) ∨
    (crc8 0x07 0xF0 (b.take 7) ≠ payloadByte b 7 ∧ unpackClassic b =
      failIntegrity 0 (crc8 0x07 0xF0 (b.take 7)) (payloadByte b 7) (b ++ [0, 0]) false) :=
  (Decidable.em _).imp (fun h => ⟨h, if_pos h⟩) (fun h => ⟨h, if_neg h⟩)

@[simp] theorem unpackClassic_var (b : List Byte) : (unpackClassic b).var = 0 := by
  rcases unpackClassic_cases b with ⟨-, h⟩ | ⟨-, h⟩ <;> rw [h] <;> rfl

/-- 25 times a byte does not overflow PRESSURE's 16 bits (R156, R176). -/
theorem pressure_mbar_toNat (p : Byte) : (BitVec.ofNat 16 (25 * p.toNat)).toNat = 25 * p.toNat := by
  have := p.isLt
  rw [BitVec.toNat_ofNat, Nat.mod_eq_of_lt (by omega)]

/-- The Classic diagnostics are those of its eight payload bytes, two zeros after them (R37, R153). -/
theorem diagnostics_classic (b0 b1 b2 b3 b4 b5 b6 b7 : Byte) :
    Diagnostics 0 (crc8 0x07 0xF0 [b0, b1, b2, b3, b4, b5, b6]) b7
      [b0, b1, b2, b3, b4, b5, b6, b7, 0, 0] where
  ten := rfl
  short _ := ⟨rfl, rfl⟩
  nibble h := by cases h
  classic _ := ⟨rfl, rfl⟩
  eg53ma4 h := by cases h
  se3 h := by cases h

theorem commit_unpackClassic_legal (b0 b1 b2 b3 b4 b5 b6 b7 : Byte) :
    (commit (unpackClassic [b0, b1, b2, b3, b4, b5, b6, b7])).Legal := by
  have hdiag := diagnostics_classic b0 b1 b2 b3 b4 b5 b6 b7
  rcases unpackClassic_cases [b0, b1, b2, b3, b4, b5, b6, b7] with ⟨hcrc, h⟩ | ⟨hcrc, h⟩ <;> rw [h]
  · have hunits : (commit (classicReading [b0, b1, b2, b3, b4, b5, b6, b7])).inUnits := by
      have hb6 := b6.isLt
      refine commit_inUnits (fun _ => pressure_mbar_toNat b5) (fun h => by cases h) (fun _ => ?_)
        (fun h => by cases h) (fun h => by cases h)
      simp only [classicReading, payloadByte_succ, payloadByte_zero]
      omega
    have hwidths : (commit (classicReading [b0, b1, b2, b3, b4, b5, b6, b7])).withinWidths :=
      commit_withinWidths (zext32_toNat_lt _) (fun h => absurd rfl h) (fun _ => zext32_toNat_lt _)
        (fun h => by cases h) hdiag.toPayloadFits
    have hword : resultWord (classicReading []) ∈ committedWords := by decide
    exact commit_legal_of_ok rfl rfl hword (iff_of_true rfl hcrc) hwidths hunits hdiag
  · have hword : resultWord (failIntegrity 0 0 0 [] false) ∈ committedWords := by decide
    exact commit_failIntegrity_legal hword hcrc hdiag

/-- The outcome of an EG53MA4 payload whose checksum matches (R174 to R178). -/
def eg53ma4Reading (b : List Byte) : DecodeOutcome :=
  { code := .ok, var := 1, model := .schraderEg53ma4, integ := .checksum, punit := .mbar
    tunit := .fahrenheit, chkValid := true, chkPass := true
    flags := payloadByte b 0 ++ payloadByte b 1 ++ payloadByte b 2 ++ payloadByte b 3
    sensorId := zext32 (payloadByte b 4 ++ payloadByte b 5 ++ payloadByte b 6)
    praw := payloadByte b 7
    pressure := BitVec.ofNat 16 (25 * (payloadByte b 7).toNat)
    temperature := ((payloadByte b 8).toNat : Int)
    calcCode := sum8 (b.take 9), recvCode := payloadByte b 9, pl := b }

/-- Everything the EG53MA4 integrity step can do (R173, R174). -/
theorem unpackEg53ma4_cases (b : List Byte) :
    (sum8 (b.take 9) = payloadByte b 9 ∧ unpackEg53ma4 b = eg53ma4Reading b) ∨
    (sum8 (b.take 9) ≠ payloadByte b 9 ∧ unpackEg53ma4 b =
      failIntegrity 1 (sum8 (b.take 9)) (payloadByte b 9) b false) :=
  (Decidable.em _).imp (fun h => ⟨h, if_pos h⟩) (fun h => ⟨h, if_neg h⟩)

@[simp] theorem unpackEg53ma4_var (b : List Byte) : (unpackEg53ma4 b).var = 1 := by
  rcases unpackEg53ma4_cases b with ⟨-, h⟩ | ⟨-, h⟩ <;> rw [h] <;> rfl

/-- The EG53MA4 diagnostics are those of its ten payload bytes (R37, R173). -/
theorem diagnostics_eg53ma4 {b : List Byte} (h : b.length = 10) :
    Diagnostics 1 (sum8 (b.take 9)) (payloadByte b 9) b where
  ten := h
  short h := absurd rfl h
  nibble h := by cases h
  classic h := by cases h
  eg53ma4 _ := ⟨rfl, rfl⟩
  se3 h := by cases h

theorem commit_unpackEg53ma4_legal {b : List Byte} (hlen : b.length = 10) :
    (commit (unpackEg53ma4 b)).Legal := by
  have hdiag := diagnostics_eg53ma4 hlen
  rcases unpackEg53ma4_cases b with ⟨hsum, h⟩ | ⟨hsum, h⟩ <;> rw [h]
  · have hunits : (commit (eg53ma4Reading b)).inUnits := by
      have hb8 := (payloadByte b 8).isLt
      refine commit_inUnits (fun _ => pressure_mbar_toNat (payloadByte b 7)) (fun h => by cases h)
        (fun h => by cases h) (fun _ => ?_) (fun h => by cases h)
      simp only [eg53ma4Reading]
      omega
    have hid : (eg53ma4Reading b).sensorId.toNat < 2 ^ 24 := zext32_toNat_lt _
    have hwidths : (commit (eg53ma4Reading b)).withinWidths :=
      commit_withinWidths (hid.trans (by decide)) (fun _ => hid) (fun h => by cases h)
        (fun h => by cases h) hdiag.toPayloadFits
    have hword : resultWord (eg53ma4Reading []) ∈ committedWords := by decide
    exact commit_legal_of_ok rfl rfl hword (iff_of_true rfl hsum) hwidths hunits hdiag
  · have hword : resultWord (failIntegrity 1 0 0 [] false) ∈ committedWords := by decide
    exact commit_failIntegrity_legal hword hsum hdiag

/-- PRESSURE_RAW of an SE3 payload (R199). -/
def se3PressureRaw (b : List Byte) : Byte :=
  (payloadByte b 3).extractLsb' 0 5 ++ (se3Mask (payloadByte b 4)).extractLsb' 5 3

/-- The outcome of an SE3 payload whose parity matches or is not enforced (R196 to R201). -/
def se3Reading (b : List Byte) (enf : Bool) : DecodeOutcome :=
  { code := .ok, var := 2, model := .schraderSe3, integ := .unverified, punit := .tenthPsi
    tunit := .none, chkValid := true, chkPass := decide (se3Computed b = se3Received b), parEnf := enf
    flags := zext32 ((payloadByte b 0).extractLsb' 5 3)
    sensorId := zext32
      (((payloadByte b 0).extractLsb' 0 5 ++ (payloadByte b 1).extractLsb' 5 3) ++
        ((payloadByte b 1).extractLsb' 0 5 ++ (payloadByte b 2).extractLsb' 5 3) ++
        ((payloadByte b 2).extractLsb' 0 5 ++ (payloadByte b 3).extractLsb' 5 3))
    praw := se3PressureRaw b
    pressure := BitVec.ofNat 16 (2 * (se3PressureRaw b).toNat + 1)
    temperature := 0
    calcCode := se3Computed b, recvCode := se3Received b, pl := b ++ [0, 0, 0, 0, 0] }

/-- Everything the SE3 parity step can do (R195, R196). -/
theorem unpackSe3_cases (b : List Byte) (enf : Bool) :
    ((se3Computed b = se3Received b ∨ enf = false) ∧ unpackSe3 b enf = se3Reading b enf) ∨
    (se3Computed b ≠ se3Received b ∧ enf = true ∧ unpackSe3 b enf =
      failIntegrity 2 (se3Computed b) (se3Received b) (b ++ [0, 0, 0, 0, 0]) true) := by
  by_cases h : se3Computed b ≠ se3Received b ∧ enf = true
  · obtain ⟨hpar, henf⟩ := h
    exact .inr ⟨hpar, henf, if_pos ⟨hpar, henf⟩⟩
  · refine .inl ⟨?_, if_neg h⟩
    rwa [not_and_or, not_ne_iff, Bool.not_eq_true] at h

@[simp] theorem unpackSe3_var (b : List Byte) (enf : Bool) : (unpackSe3 b enf).var = 2 := by
  rcases unpackSe3_cases b enf with ⟨-, h⟩ | ⟨-, -, h⟩ <;> rw [h] <;> rfl

/-- Twice a byte and one does not overflow PRESSURE's 16 bits (R200). -/
theorem pressure_tenthPsi_toNat (p : Byte) :
    (BitVec.ofNat 16 (2 * p.toNat + 1)).toNat = 2 * p.toNat + 1 := by
  have := p.isLt
  rw [BitVec.toNat_ofNat, Nat.mod_eq_of_lt (by omega)]

/-- The SE3 diagnostics are those of its 36 payload bits, zeros after them (R37, R193, R195). -/
theorem diagnostics_se3 (b0 b1 b2 b3 : Byte) (n : BitVec 4) :
    Diagnostics 2 (se3Computed [b0, b1, b2, b3, n ++ 0#4]) (se3Received [b0, b1, b2, b3, n ++ 0#4])
      [b0, b1, b2, b3, n ++ 0#4, 0, 0, 0, 0, 0] where
  ten := rfl
  short _ := ⟨rfl, rfl⟩
  nibble _ := ⟨⟨n, rfl⟩, rfl, rfl, rfl⟩
  classic h := by cases h
  eg53ma4 h := by cases h
  se3 _ := ⟨rfl, rfl⟩

/-- The RESULT word of an SE3 reading is by its parity verdict and its enforcement (R35, R198). -/
theorem resultWord_se3Reading_mem {b : List Byte} {enf : Bool}
    (h : se3Computed b = se3Received b ∨ enf = false) :
    resultWord (se3Reading b enf) ∈ committedWords := by
  have hword : ∀ pass enf : Bool, pass = true ∨ enf = false →
      resultWord { se3Reading [] enf with chkPass := pass } ∈ committedWords := by decide
  exact hword (decide (se3Computed b = se3Received b)) enf (h.imp_left decide_eq_true)

theorem commit_unpackSe3_legal (b0 b1 b2 b3 : Byte) (n : BitVec 4) (enf : Bool) :
    (commit (unpackSe3 [b0, b1, b2, b3, n ++ 0#4] enf)).Legal := by
  have hdiag := diagnostics_se3 b0 b1 b2 b3 n
  rcases unpackSe3_cases [b0, b1, b2, b3, n ++ 0#4] enf with ⟨hpar, h⟩ | ⟨hpar, -, h⟩ <;> rw [h]
  · have hunits : (commit (se3Reading [b0, b1, b2, b3, n ++ 0#4] enf)).inUnits :=
      commit_inUnits (fun h => by cases h) (fun _ => pressure_tenthPsi_toNat _)
        (fun h => by cases h) (fun h => by cases h) (fun _ => rfl)
    have hid : (se3Reading [b0, b1, b2, b3, n ++ 0#4] enf).sensorId.toNat < 2 ^ 24 :=
      zext32_toNat_lt _
    have hwidths : (commit (se3Reading [b0, b1, b2, b3, n ++ 0#4] enf)).withinWidths :=
      commit_withinWidths (hid.trans (by decide)) (fun _ => hid) (fun h => by cases h)
        (fun _ => zext32_toNat_lt _) hdiag.toPayloadFits
    exact commit_legal_of_ok rfl rfl (resultWord_se3Reading_mem hpar) decide_eq_true_iff hwidths
      hunits hdiag
  · have hword : resultWord (failIntegrity 2 0 0 [] true) ∈ committedWords := by decide
    exact commit_failIntegrity_legal hword hpar hdiag

end Sys2Proof.Machine

/-! SUPPORT. What a command commits is legal, and every event keeps the invariant: the case analysis is
`StepCase`'s, and the completion rests on the legal commits above. -/

namespace Sys2Proof.Machine

/-- Everything DECODE_CLASSIC can return (R150, R151). -/
theorem decodeClassic_cases (len : FrameLen) (f : Frame) :
    decodeClassic len f = unpackClassic (frameBytes f 4 8) ∨
    decodeClassic len f = fail .frameLengthMismatch 0 := by
  by_cases h : len = 68
  · exact .inl (h ▸ decodeClassic_68 f)
  · exact .inr (decodeClassic_length f h)

/-- Everything DECODE_EG53MA4 can return (R170, R171). -/
theorem decodeEg53ma4_cases (len : FrameLen) (f : Frame) :
    decodeEg53ma4 len f = unpackEg53ma4 (frameBytes f 40 10) ∨
    decodeEg53ma4 len f = fail .frameLengthMismatch 1 := by
  by_cases h : len = 120
  · exact .inl (h ▸ decodeEg53ma4_120 f)
  · exact .inr (decodeEg53ma4_length f h)

/-- Everything DECODE_SE3 can return (R190, R191). -/
theorem decodeSe3_cases (len : FrameLen) (f : Frame) (enf : Bool) :
    decodeSe3 len f enf = unpackSe3 (frameBytes f 16 4 ++ [frameField f 48 4 ++ 0#4]) enf ∨
    decodeSe3 len f enf = fail .frameLengthMismatch 2 := by
  by_cases h : len = 52 ∨ len = 53
  · exact .inl (decodeSe3_accepted f enf h)
  · obtain ⟨h52, h53⟩ := not_or.mp h
    exact .inr (decodeSe3_length f enf h52 h53)

/-- What a length mismatch commits is legal for each of the three variants (R99, R212). -/
theorem commit_frameLengthMismatch_legal {v : VariantCode} (hv : v ≠ 3) :
    (commit (fail .frameLengthMismatch v)).Legal := by
  have hwords : ∀ v : VariantCode, v ≠ 3 →
      resultWord (fail .frameLengthMismatch v) ∈ committedWords := by decide
  exact commit_fail_legal (hwords v hv)

/-- What a command commits is legal, on every length, frame and enforcement (R96, R97). -/
theorem commit_commandOutcome_legal (i : Instr) (len : FrameLen) (f : Frame) (enf : Bool) :
    (commit (commandOutcome i len f enf)).Legal := by
  cases i with
  | decodeClassic =>
    rcases decodeClassic_cases len f with h | h <;> rw [commandOutcome, h]
    · exact commit_unpackClassic_legal _ _ _ _ _ _ _ _
    · exact commit_frameLengthMismatch_legal (by decide)
  | decodeEg53ma4 =>
    rcases decodeEg53ma4_cases len f with h | h <;> rw [commandOutcome, h]
    · exact commit_unpackEg53ma4_legal rfl
    · exact commit_frameLengthMismatch_legal (by decide)
  | decodeSe3 =>
    rcases decodeSe3_cases len f enf with h | h <;> rw [commandOutcome, h]
    · rw [se3Payload_eq]
      exact commit_unpackSe3_legal _ _ _ _ _ enf
    · exact commit_frameLengthMismatch_legal (by decide)
  | reservedVariant =>
    have hword : resultWord (fail .badVariant 3) ∈ committedWords := by decide
    exact commit_fail_legal hword

/-- An outcome carries the variant of its command (R97). -/
@[simp] theorem commandOutcome_var (i : Instr) (len : FrameLen) (f : Frame) (enf : Bool) :
    (commandOutcome i len f enf).var = variantCode i := by
  cases i with
  | decodeClassic =>
    rcases decodeClassic_cases len f with h | h <;> rw [commandOutcome, h]
    · exact unpackClassic_var _
    · rfl
  | decodeEg53ma4 =>
    rcases decodeEg53ma4_cases len f with h | h <;> rw [commandOutcome, h]
    · exact unpackEg53ma4_var _
    · rfl
  | decodeSe3 =>
    rcases decodeSe3_cases len f enf with h | h <;> rw [commandOutcome, h]
    · exact unpackSe3_var _ enf
    · rfl
  | reservedVariant => rfl

/-- The invariant reads the results, BUSY, DONE and the latch, and of WERR only that it is not set with
BUSY = 0 without having been set before. -/
theorem State.Inv.congr {s t : State} (hi : s.Inv) (hresults : t.results = s.results)
    (hbusy : t.busy = s.busy) (hdone : t.done = s.done) (hvar : t.pendingVar = s.pendingVar)
    (hwerr : t.werr = true → s.werr = true ∨ s.busy = true) : t.Inv := by
  obtain ⟨hlegal, hboth, hidle, houtcome⟩ := hi
  unfold State.Inv
  rw [hresults, hbusy, hdone, hvar]
  refine ⟨hlegal, hboth, fun hb hd => ?_, houtcome⟩
  obtain ⟨hr, hv, hw⟩ := hidle hb hd
  refine ⟨hr, hv, Bool.eq_false_iff.mpr fun ht => ?_⟩
  rcases hwerr ht with h | h
  · exact Bool.false_ne_true (hw.symm.trans h)
  · exact Bool.false_ne_true (hb.symm.trans h)

/-- Acceptance keeps the results as they are, with BUSY = 1 and DONE = 0 (R92). -/
theorem inv_accept {s : State} (hi : s.Inv) (v : VariantCode) : (accept v s).Inv := by
  obtain ⟨hlegal, -, -, -⟩ := hi
  exact ⟨hlegal, by simp, by simp, by simp⟩

/-- A write keeps the invariant: WERR is set by it only with BUSY = 1 (R26, R54). -/
theorem inv_writeWindow {s : State} (hi : s.Inv) (off : BitVec 8) (v : Word) :
    (writeWindow off v s).Inv := by
  rcases writeWindow_cases off v s with h | ⟨hb, h⟩ | ⟨-, h⟩ | h | ⟨-, h⟩ | ⟨-, h⟩ | ⟨-, k, h⟩ <;> rw [h]
  · exact hi
  · exact hi.congr rfl rfl rfl rfl (fun _ => .inr hb)
  · exact inv_accept hi _
  · exact hi.congr rfl rfl rfl rfl (fun h => by simp at h)
  · exact hi.congr rfl rfl rfl rfl .inl
  · exact hi.congr rfl rfl rfl rfl .inl
  · exact hi.congr rfl rfl rfl rfl .inl

/-- The completion step makes the invariant true, whatever the results were (R93, R94). -/
theorem inv_complete_decodeFrame (s : State) :
    (complete (decodeFrame s.pendingVar s.lenBits s.frame s.se3ParityEn) s).Inv := by
  have hvar : (decodeFrame s.pendingVar s.lenBits s.frame s.se3ParityEn).var = s.pendingVar := by
    rw [decodeFrame_eq, commandOutcome_var, variantCode_decodeVariant]
  refine ⟨commit_commandOutcome_legal _ _ _ _, by simp, by simp, fun _ => ⟨?_, ?_⟩⟩
  · rw [complete_results, commit_result, resultCode_resultWord]
    exact Code.bits_ne_zero _
  · rw [complete_results, commit_result, resultVar_resultWord, complete_pendingVar]
    exact hvar

/-- The results after reset are legal: the reset word has no reading and no diagnostics (R41). -/
theorem results_reset_legal : Results.reset.Legal := by
  refine ⟨?_, ?_, ?_, ?_, ?_⟩
  · unfold resultWordLegal; decide
  · unfold Results.emptyWhereDue; decide
  · unfold Results.withinWidths; decide
  · unfold Results.inUnits; decide
  · unfold Results.checkOfPayload; decide

/-- The registers as reset leaves them meet the invariant, whatever the model's own fields (R41). -/
theorem inv_of_reset {s : State} (hresults : s.results = Results.reset) (hbusy : s.busy = false)
    (hdone : s.done = false) (hvar : s.pendingVar = 0) (hwerr : s.werr = false) : s.Inv :=
  ⟨hresults ▸ results_reset_legal, by simp [hbusy], fun _ _ => ⟨hresults, hvar, hwerr⟩, by simp [hdone]⟩

/-- Every event keeps the invariant. -/
theorem StepCase.keeps_inv {s t : State} {e : Event} (hi : s.Inv) (h : StepCase s e t) : t.Inv := by
  cases h with
  | completes _ => exact inv_complete_decodeFrame s
  | idles _ => exact hi
  | resets => exact inv_of_reset rfl rfl rfl rfl rfl
  | reads _ _ r => exact hi.congr rfl rfl rfl rfl .inl
  | refuses _ _ _ r => exact hi.congr rfl rfl rfl rfl .inl
  | writes off v _ => exact (inv_writeWindow hi off v).congr rfl rfl rfl rfl .inl

/-- Settles O50: taking the event off the schedule keeps the invariant, and so does every event. -/
theorem everyStepKeepsTheInvariant : Obligations.EveryStepKeepsTheInvariant := by
  unfold Obligations.EveryStepKeepsTheInvariant
  intro s t hi hstep
  have hfetched : (afterFetch s).Inv := hi.congr rfl rfl rfl rfl .inl
  exact (stepCase_of_step hstep).keeps_inv hfetched

/-- Settles O49: the base case of O50. -/
theorem invariantHoldsAtReset : Obligations.InvariantHoldsAtReset :=
  inv_of_reset rfl rfl rfl rfl rfl

end Sys2Proof.Machine

/-! SUPPORT. The window offset by offset: which register an offset selects (R21, R38, R51) and what it
reads as (R53), on every state and right after reset (R41). -/

namespace Sys2Proof.Machine

/-- The space from offset 0x48 on is reserved (R38). -/
theorem regAt_reserved : ∀ off : BitVec 8, 0x48 ≤ off → regAt off = none := by decide +kernel

/-- A register selected by an aligned offset is the register of that offset (R21). -/
theorem regOffset_of_regAt {off : BitVec 8} {r : Reg} (ha : off &&& 3 = 0) (h : regAt off = some r) :
    off = regOffset r := by
  have key : ∀ off : BitVec 8, off &&& 3 = 0 →
      ((regAt off).all fun r => off == regOffset r) = true := by decide +kernel
  have hk := key off ha
  rw [h, Option.all_some, beq_iff_eq] at hk
  exact hk

/-- At a selected register the window reads as that register (R53). -/
theorem readWindow_of_regAt {off : BitVec 8} {r : Reg} (h : regAt off = some r) (s : State) :
    readWindow s off = readReg s r := by
  simp only [readWindow, h]

/-- The window at a register's own offset reads as that register (R21, R53). -/
theorem readWindow_regOffset (r : Reg) (s : State) : readWindow s (regOffset r) = readReg s r :=
  readWindow_of_regAt (regAt_regOffset r) s

/-- The reserved space reads 0 (R38). -/
theorem readWindow_reserved {off : BitVec 8} (h : 0x48 ≤ off) (s : State) : readWindow s off = 0 := by
  simp only [readWindow, regAt_reserved off h]

/-- CTRL reads its one bit (R22). -/
theorem ctrlWord_eq (s : State) : ctrlWord s = if s.se3ParityEn = true then 1 else 0 := by
  have key : ∀ b : Bool, zext32 (BitVec.ofBool b) = if b = true then 1 else 0 := by decide
  exact key s.se3ParityEn

/-- STATUS reads its three bits (R24). -/
theorem statusWord_eq (s : State) : statusWord s =
    (if s.busy = true then 1 else 0) + (if s.done = true then 2 else 0) +
      (if s.werr = true then 4 else 0) := by
  have key : ∀ b d w : Bool, zext32 (BitVec.ofBool w ++ BitVec.ofBool d ++ BitVec.ofBool b) =
      (if b = true then 1 else 0) + (if d = true then 2 else 0) + (if w = true then 4 else 0) := by
    decide
  exact key s.busy s.done s.werr

/-- LEN reads its 16 bits (R27). -/
theorem lenWord_toNat (s : State) : (lenWord s).toNat = s.lenBits.toNat :=
  BitVec.toNat_setWidth_of_le (by decide)

/-- Settles O33: each register at its offset by the register map. -/
theorem windowReadsAsTheRegisterMap : Obligations.WindowReadsAsTheRegisterMap := by
  unfold Obligations.WindowReadsAsTheRegisterMap
  intro s
  have read (r : Reg) : readWindow s (regOffset r) = readReg s r := readWindow_regOffset r s
  exact ⟨(read .ctrl).trans (ctrlWord_eq s), read .cmd, (read .status).trans (statusWord_eq s),
    (congrArg BitVec.toNat (read .len)).trans (lenWord_toNat s),
    read (.frame 0), read (.frame 1), read (.frame 2), read (.frame 3),
    read .result, read .sensorId, read .flags, read .pressureRaw, read .pressure, read .temperature,
    read .check, read (.payload 0), read (.payload 1), read (.payload 2),
    fun off h => readWindow_reserved h s⟩

/-- Settles O46: one fixed state, whose window is read out. -/
theorem resetValuesOfTheRegisters : Obligations.ResetValuesOfTheRegisters := by
  unfold Obligations.ResetValuesOfTheRegisters
  refine ⟨by decide, by decide, by decide, by decide, by decide, rfl, ?_, ?_⟩
  · decide +kernel
  · decide +kernel

end Sys2Proof.Machine

/-! SUPPORT. The frame of a completion, and what a step can do to WERR, to the result registers and to
the inputs of a decode in flight: each read off `StepCase`. -/

namespace Sys2Proof.Machine

/-- Outside STATUS and the result registers an offset selects one of the registers that BUSY guards, CTRL,
CMD, LEN and FRAME0 to FRAME3, or nothing (R21, R26). -/
theorem guardedByBusy_of_regAt {off : BitVec 8} {r : Reg} (hstatus : off &&& 0xFC ≠ 0x08)
    (hresults : off < 0x20 ∨ 0x48 ≤ off) (h : regAt off = some r) : guardedByBusy r = true := by
  have key : ∀ off : BitVec 8, off &&& 0xFC ≠ 0x08 → (off < 0x20 ∨ 0x48 ≤ off) →
      (regAt off).all guardedByBusy = true := by decide +kernel
  have hk := key off hstatus hresults
  rwa [h, Option.all_some] at hk

/-- A completion leaves every register that BUSY guards reading as before (R42, R93). -/
theorem readReg_complete {r : Reg} (h : guardedByBusy r = true) (o : DecodeOutcome) (s : State) :
    readReg (complete o s) r = readReg s r := by
  cases r with
  | ctrl | cmd | len | frame => rfl
  | _ => cases h

/-- A completion leaves the window outside STATUS and the result registers as it was (R42, R93). -/
theorem readWindow_complete {off : BitVec 8} (hstatus : off &&& 0xFC ≠ 0x08)
    (hresults : off < 0x20 ∨ 0x48 ≤ off) (o : DecodeOutcome) (s : State) :
    readWindow (complete o s) off = readWindow s off := by
  cases hr : regAt off with
  | none => simp only [readWindow, hr]
  | some r =>
    rw [readWindow_of_regAt hr, readWindow_of_regAt hr,
      readReg_complete (guardedByBusy_of_regAt hstatus hresults hr)]

/-- After a completion STATUS reads BUSY = 0, DONE = 1 and WERR as it was (R24, R93). -/
theorem readWindow_complete_status (o : DecodeOutcome) (s : State) :
    readWindow (complete o s) 0x08 = if s.werr = true then 0x00000006 else 0x00000002 := by
  have key : ∀ w : Bool, (0 : Word) + 2 + (if w = true then 4 else 0) = if w = true then 6 else 2 := by
    decide
  calc readWindow (complete o s) 0x08 = statusWord (complete o s) := readWindow_regOffset .status _
    _ = 0 + 2 + (if s.werr = true then 4 else 0) := statusWord_eq _
    _ = if s.werr = true then 6 else 2 := key s.werr

/-- Settles O16: every command's completion is `complete` of its outcome (`exec_eq`). -/
theorem completionFrame : Obligations.CompletionFrame := by
  unfold Obligations.CompletionFrame
  intro i s t h
  rw [exec_eq] at h
  injection h with h
  subst h
  exact ⟨rfl, rfl, rfl, rfl, rfl, rfl, rfl, rfl,
    fun _ hstatus hresults => readWindow_complete hstatus hresults _ s,
    readWindow_complete_status _ s⟩

/-- The offsets of the registers whose writes BUSY guards (R26, R243). -/
def guardedOffsets : List (BitVec 8) := [0x00, 0x04, 0x0C, 0x10, 0x14, 0x18, 0x1C]

theorem regOffset_mem_guardedOffsets {r : Reg} (h : guardedByBusy r = true) :
    regOffset r ∈ guardedOffsets := by
  cases r with
  | ctrl | cmd | len => decide
  | frame k => revert k; decide
  | _ => cases h

/-- Everything a register write can do to WERR (R26, R54). -/
theorem writeReg_werr_cases (r : Reg) (v : Word) (s : State) :
    (writeReg r v s).werr = s.werr ∨
    (r = .status ∧ v.getLsbD 2 = true ∧ (writeReg r v s).werr = false) ∨
    (guardedByBusy r = true ∧ s.busy = true ∧ (writeReg r v s).werr = true) := by
  by_cases hg : (guardedByBusy r && s.busy) = true
  · obtain ⟨hguard, hbusy⟩ := Bool.and_eq_true_iff.mp hg
    exact .inr (.inr ⟨hguard, hbusy, by rw [writeReg, if_pos hg, ignoreWrite_werr]⟩)
  · rw [writeReg, if_neg hg]
    cases r with
    | status =>
      by_cases hv : v.getLsbD 2 = true
      · exact .inr (.inl ⟨rfl, hv, by rw [honourWrite, if_pos hv, clearWerr_werr]⟩)
      · exact .inl (by rw [honourWrite, if_neg hv])
    | _ => exact .inl rfl

/-- Everything an admitted write can do to WERR: a 1 in STATUS bit 2 clears it, a write that BUSY guards
sets it, and any other leaves it (R26, R54). -/
theorem writeWindow_werr_cases {off : BitVec 8} (ha : off &&& 3 = 0) (v : Word) (s : State) :
    (writeWindow off v s).werr = s.werr ∨
    (off = 0x08 ∧ v.getLsbD 2 = true ∧ (writeWindow off v s).werr = false) ∨
    (off ∈ guardedOffsets ∧ s.busy = true ∧ (writeWindow off v s).werr = true) := by
  cases hr : regAt off with
  | none => exact .inl (by simp only [writeWindow, hr])
  | some r =>
    have hw : writeWindow off v s = writeReg r v s := by simp only [writeWindow, hr]
    have hoff : off = regOffset r := regOffset_of_regAt ha hr
    rw [hw]
    rcases writeReg_werr_cases r v s with h | ⟨rfl, hv, h⟩ | ⟨hg, hb, h⟩
    · exact .inl h
    · exact .inr (.inl ⟨hoff, hv, h⟩)
    · exact .inr (.inr ⟨hoff ▸ regOffset_mem_guardedOffsets hg, hb, h⟩)

/-- Everything an event can do to WERR (R26, R42): leave it, clear it by a reset or by a write of 1 to its
bit, or set it by a write that BUSY guards. -/
theorem StepCase.werr_cases {s t : State} {e : Event} (h : StepCase s e t) :
    t.werr = s.werr ∨
    (t.werr = false ∧
      (e = .reset ∨ ∃ v, e = .hostWrite (tfdBase s + 0x08) 4 v ∧ v.getLsbD 2 = true)) ∨
    (t.werr = true ∧ s.busy = true ∧
      ∃ off v, e = .hostWrite (tfdBase s + BitVec.toNat off) 4 v ∧ off ∈ guardedOffsets) := by
  cases h with
  | resets => exact .inr (.inl ⟨rfl, .inl rfl⟩)
  | writes off v ha =>
    rcases writeWindow_werr_cases ha v s with h | ⟨rfl, hv, h⟩ | ⟨hoff, hb, h⟩
    · exact .inl h
    · exact .inr (.inl ⟨h, .inr ⟨v, rfl, hv⟩⟩)
    · exact .inr (.inr ⟨h, hb, off, v, rfl, hoff⟩)
  | _ => exact .inl rfl

/-- Settles O38: the three cases of `StepCase.werr_cases`; the events in them are the schedule's. -/
theorem werrIsSticky : Obligations.WerrIsSticky := by
  unfold Obligations.WerrIsSticky
  intro s t hstep
  have hcases := (stepCase_of_step hstep).werr_cases
  rw [afterFetch_werr, afterFetch_busy, tfdBase_afterFetch] at hcases
  rcases hcases with hsame | ⟨ht, he⟩ | ⟨ht, hb, off, v, he, hoff⟩
  · rw [hsame]
    exact ⟨fun hs hs' => absurd (hs.symm.trans hs') (by decide),
      fun hs hs' => absurd (hs.symm.trans hs') (by decide)⟩
  · refine ⟨fun _ _ => ?_, fun _ ht' => absurd (ht.symm.trans ht') (by decide)⟩
    rcases he with he | ⟨v, he, hv⟩
    · exact .inl (schedule_of_nextEvent he (by simp))
    · obtain ⟨rest, hrest⟩ := schedule_of_nextEvent he (by simp)
      exact .inr ⟨v, rest, hrest, hv⟩
  · refine ⟨fun _ ht' => absurd (ht.symm.trans ht') (by decide), fun _ _ => ⟨hb, ?_⟩⟩
    obtain ⟨rest, hrest⟩ := schedule_of_nextEvent he (by simp)
    exact ⟨off, v, rest, hrest, hoff⟩

/-- No write changes a result register (R21, R54). -/
@[simp] theorem writeWindow_results (off : BitVec 8) (v : Word) (s : State) :
    (writeWindow off v s).results = s.results := by
  rcases writeWindow_cases off v s with h | ⟨-, h⟩ | ⟨-, h⟩ | h | ⟨-, h⟩ | ⟨-, h⟩ | ⟨-, k, h⟩ <;>
    simp [h]

/-- An event that changes a result register is a completion or a reset (R21, R94, R240). -/
theorem StepCase.event_of_results_ne {s t : State} {e : Event} (h : StepCase s e t)
    (hne : t.results ≠ s.results) : (s.busy = true ∧ e = .engine) ∨ e = .reset := by
  cases h with
  | completes hb => exact .inl ⟨hb, rfl⟩
  | resets => exact .inr rfl
  | writes off v _ => exact absurd (writeWindow_results off v s) hne
  | _ => exact absurd rfl hne

/-- Where the next event is the engine's turn it is scheduled first, or nothing is (R90, R95). -/
theorem engineNext_of_nextEvent {s : State} (h : nextEvent s = .engine) : engineNext s := by
  cases hs : s.schedule with
  | nil => exact .inl hs
  | cons e rest =>
    rw [nextEvent, hs, List.head?_cons, Option.getD_some] at h
    exact .inr (by rw [hs, List.head?_cons, h])

/-- A reset as the next event is scheduled first. -/
theorem head_schedule_of_nextEvent_reset {s : State} (h : nextEvent s = .reset) :
    s.schedule.head? = some .reset := by
  obtain ⟨rest, hrest⟩ := schedule_of_nextEvent h (by simp)
  rw [hrest, List.head?_cons]

/-- Settles O41: the event that changed them is a completion or a reset. -/
theorem resultsChangeOnlyAtCompletionOrReset : Obligations.ResultsChangeOnlyAtCompletionOrReset := by
  unfold Obligations.ResultsChangeOnlyAtCompletionOrReset
  intro s t hstep hne
  exact ((stepCase_of_step hstep).event_of_results_ne hne).imp
    (fun ⟨hb, he⟩ => ⟨hb, engineNext_of_nextEvent he⟩) head_schedule_of_nextEvent_reset

/-- Two states agree in the inputs of the decode in flight: CTRL, LEN, FRAME and the latch (R39, R243). -/
def sameInputs (s t : State) : Prop :=
  t.se3ParityEn = s.se3ParityEn ∧ t.lenBits = s.lenBits ∧ t.frame = s.frame ∧
  t.pendingVar = s.pendingVar

/-- With BUSY = 1 a write leaves the inputs of the decode in flight (R243). -/
theorem sameInputs_writeWindow {s : State} (hb : s.busy = true) (off : BitVec 8) (v : Word) :
    sameInputs s (writeWindow off v s) := by
  have hnot : s.busy ≠ false := by simp [hb]
  rcases writeWindow_cases off v s with h | ⟨-, h⟩ | ⟨h, -⟩ | h | ⟨h, -⟩ | ⟨h, -⟩ | ⟨h, -⟩
  · rw [h]; exact ⟨rfl, rfl, rfl, rfl⟩
  · rw [h]; exact ⟨rfl, rfl, rfl, rfl⟩
  · exact absurd h hnot
  · rw [h]; exact ⟨rfl, rfl, rfl, rfl⟩
  all_goals exact absurd h hnot

/-- With BUSY = 1 every event but a reset leaves the inputs of the decode in flight (R39, R243). -/
theorem StepCase.keeps_inputs {s t : State} {e : Event} (h : StepCase s e t) (hb : s.busy = true)
    (he : e ≠ .reset) : sameInputs s t := by
  cases h with
  | resets => exact absurd rfl he
  | writes off v _ => exact sameInputs_writeWindow hb off v
  | _ => exact ⟨rfl, rfl, rfl, rfl⟩

/-- Settles O42: the step's event is not a reset, since a reset comes from the schedule alone. -/
theorem inputsAreFrozenWhileBusy : Obligations.InputsAreFrozenWhileBusy := by
  unfold Obligations.InputsAreFrozenWhileBusy
  intro s t hb hhead hstep
  exact (stepCase_of_step hstep).keeps_inputs hb fun he => hhead (head_schedule_of_nextEvent_reset he)

end Sys2Proof.Machine

/-! SUPPORT. A step whose event is a host access: the scheduled access is performed (R90, R91), and an
admitted read, a refused access and an access outside the window each have their one answer (R51 to R53,
R214). -/

namespace Sys2Proof.Machine

/-- A step performs the first event of the schedule on the state without it (R90). -/
theorem step_of_schedule {s : State} {e : Event} {rest : List Event} (h : s.schedule = e :: rest) :
    step s = perform e (withSchedule rest s) := by
  unfold step nextTurn
  rw [h]

/-- The step of an admitted read (R53). -/
theorem step_hostRead_admitted {s : State} {off : BitVec 8} {rest : List Event} (ha : off &&& 3 = 0)
    (hs : s.schedule = .hostRead (tfdBase s + off.toNat) 4 :: rest) :
    step s = .next (respond (.data (readWindow s off)) (withSchedule rest s)) := by
  rw [step_of_schedule hs]
  exact congrArg Host.Outcome.next (hostRead_admitted (withSchedule rest s) off ha)

/-- The step of an admitted write (R54). -/
theorem step_hostWrite_admitted {s : State} {off : BitVec 8} {v : Word} {rest : List Event}
    (ha : off &&& 3 = 0) (hs : s.schedule = .hostWrite (tfdBase s + off.toNat) 4 v :: rest) :
    step s = .next (respond .done (withSchedule rest (writeWindow off v s))) := by
  rw [step_of_schedule hs, ← writeWindow_withSchedule]
  exact congrArg Host.Outcome.next (hostWrite_admitted (withSchedule rest s) off v ha)

/-- Settles O32: the step of an admitted read. -/
theorem readAnswersTheRegister : Obligations.ReadAnswersTheRegister := by
  unfold Obligations.ReadAnswersTheRegister
  intro s off rest ha hs
  exact step_hostRead_admitted ha hs

/-- The event is a read or a write of `n` bytes at an address. -/
def Event.accesses (addr n : Nat) (e : Event) : Prop :=
  e = .hostRead addr n ∨ ∃ v, e = .hostWrite addr n v

/-- An access outside the window is answered by nothing (R51, log entry 4). -/
theorem perform_of_windowOffset_none {s : State} {addr n : Nat} {e : Event} (he : e.accesses addr n)
    (hw : windowOffset s addr = none) : perform e s = .next (respond .none s) := by
  rcases he with rfl | ⟨v, rfl⟩
  · simp only [perform, hostRead, hw]
  · simp only [perform, hostWrite, hw]

/-- An access that is not admitted is answered by BusError (R52, R214). -/
theorem perform_of_not_admitted {s : State} {addr n : Nat} {off : BitVec 8} {e : Event}
    (he : e.accesses addr n) (hw : windowOffset s addr = some off) (ha : admitted n off ≠ true) :
    perform e s = .next (respond (.busError addr) s) := by
  rcases he with rfl | ⟨v, rfl⟩
  · simp only [perform, hostRead, hw, if_neg ha]
  · simp only [perform, hostWrite, hw, if_neg ha]

/-- The obligations name the scheduled access as a read or a write of the same address and width. -/
theorem exists_access_of_schedule {s : State} {addr n : Nat} {v : Word} {rest : List Event}
    (hs : s.schedule = .hostRead addr n :: rest ∨ s.schedule = .hostWrite addr n v :: rest) :
    ∃ e, s.schedule = e :: rest ∧ e.accesses addr n :=
  hs.elim (fun h => ⟨_, h, .inl rfl⟩) (fun h => ⟨_, h, .inr ⟨v, rfl⟩⟩)

/-- Outside the window an address has no offset (R51). -/
theorem windowOffset_outside {s : State} {addr : Nat}
    (h : addr < tfdBase s ∨ tfdBase s + 0xFF < addr) : windowOffset s addr = none :=
  if_neg (by omega)

/-- Inside the window an address has an offset (R51). -/
theorem windowOffset_inside {s : State} {addr : Nat} (hlo : tfdBase s ≤ addr)
    (hhi : addr ≤ tfdBase s + 0xFF) :
    windowOffset s addr = some (BitVec.ofNat 8 (addr - tfdBase s)) :=
  if_pos ⟨hlo, hhi⟩

/-- The alignment test on an offset is divisibility by 4 (R52). -/
theorem toNat_mod_four_of_and_three {off : BitVec 8} (h : off &&& 3 = 0) : off.toNat % 4 = 0 := by
  have hnat : off.toNat &&& (2 ^ 2 - 1) = 0 := congrArg BitVec.toNat h
  rwa [Nat.and_two_pow_sub_one_eq_mod] at hnat

/-- Settles O37: no offset, so no access. -/
theorem accessOutsideTheWindowIsNotSeen : Obligations.AccessOutsideTheWindowIsNotSeen := by
  unfold Obligations.AccessOutsideTheWindowIsNotSeen
  intro s addr n v rest hout hs
  obtain ⟨e, hsched, he⟩ := exists_access_of_schedule hs
  rw [step_of_schedule hsched]
  exact perform_of_windowOffset_none he (windowOffset_outside hout)

/-- Settles O36: an admitted access would be four bytes wide at a multiple of 4 (`admitted_address`). -/
theorem refusedAccessAnswersBusError : Obligations.RefusedAccessAnswersBusError := by
  unfold Obligations.RefusedAccessAnswersBusError
  intro s addr n v rest hlo hhi hbad hs
  obtain ⟨e, hsched, he⟩ := exists_access_of_schedule hs
  have hw := windowOffset_inside hlo hhi
  have hrefused : admitted n (BitVec.ofNat 8 (addr - tfdBase s)) ≠ true := fun ha => by
    obtain ⟨haddr, hn, halign⟩ := admitted_address hw ha
    have hmod := toNat_mod_four_of_and_three halign
    omega
  rw [step_of_schedule hsched]
  exact perform_of_not_admitted (s := withSchedule rest s) he hw hrefused

/-- A narrow write of CMD, scheduled, meets the hypotheses of O36. -/
theorem refusedAccess_narrow_write :
    step { State.reset with schedule := [.hostWrite 0x04 1 0] } =
      .next { State.reset with response := .busError 0x04 } :=
  refusedAccessAnswersBusError { State.reset with schedule := [.hostWrite 0x04 1 0] } 0x04 1 0 []
    (by decide) (by decide) (.inl (by decide)) (.inr rfl)

/-- A read of the first address past the window, scheduled, meets the hypotheses of O37. -/
theorem accessOutside_read_past_window :
    step { State.reset with schedule := [.hostRead 0x100 4] } = .next State.reset :=
  accessOutsideTheWindowIsNotSeen { State.reset with schedule := [.hostRead 0x100 4] } 0x100 4 0 []
    (.inr (by decide)) (.inl rfl)

end Sys2Proof.Machine

/-! SUPPORT. What a write does register by register (R26, R54), that it leaves BUSY and DONE unless it is a
write of CMD, and that repeating it changes nothing more (R55). -/

namespace Sys2Proof.Machine

/-- A write at a selected register writes that register (R54). -/
theorem writeWindow_of_regAt {off : BitVec 8} {r : Reg} (h : regAt off = some r) (v : Word) (s : State) :
    writeWindow off v s = writeReg r v s := by
  simp only [writeWindow, h]

/-- In the reserved space a write does nothing (R38). -/
theorem writeWindow_of_regAt_none {off : BitVec 8} (h : regAt off = none) (v : Word) (s : State) :
    writeWindow off v s = s := by
  simp only [writeWindow, h]

/-- A register that BUSY does not guard is written as it is (R54). -/
theorem writeReg_unguarded {r : Reg} (hg : guardedByBusy r = false) (v : Word) (s : State) :
    writeReg r v s = honourWrite r v s := by
  simp [writeReg, hg]

/-- A register that BUSY guards is written with BUSY = 0 and its write ignored with BUSY = 1 (R26, R54). -/
theorem writeReg_guarded {r : Reg} (hg : guardedByBusy r = true) (v : Word) (s : State) :
    writeReg r v s = if s.busy = true then ignoreWrite s else honourWrite r v s := by
  simp [writeReg, hg]

/-- A write at the offset of a register that BUSY guards (R26, R54). -/
theorem writeWindow_guarded {r : Reg} (hg : guardedByBusy r = true) (v : Word) (s : State) :
    writeWindow (regOffset r) v s = if s.busy = true then ignoreWrite s else honourWrite r v s :=
  (writeWindow_of_regAt (regAt_regOffset r) v s).trans (writeReg_guarded hg v s)

/-- A write at the offset of STATUS (R26, R54). -/
theorem writeWindow_status (v : Word) (s : State) :
    writeWindow 0x08 v s = if v.getLsbD 2 = true then clearWerr s else s :=
  (writeWindow_of_regAt (regAt_regOffset .status) v s).trans (writeReg_unguarded rfl v s)

/-- Settles O34: the step of an admitted write, and the write of each offset by the register map. -/
theorem writeHasExactlyItsEffect : Obligations.WriteHasExactlyItsEffect := by
  unfold Obligations.WriteHasExactlyItsEffect
  refine ⟨fun s off v rest ha hs => step_hostWrite_admitted ha hs, fun s v => ?_⟩
  have write (r : Reg) (hg : guardedByBusy r = true) := writeWindow_guarded hg v s
  exact ⟨write .ctrl rfl, write .cmd rfl, writeWindow_status v s, write .len rfl,
    write (.frame 0) rfl, write (.frame 1) rfl, write (.frame 2) rfl, write (.frame 3) rfl,
    fun off h => writeWindow_readOnly off v s h⟩

/-- Only a write of CMD changes BUSY or DONE (R24, R25, R54). -/
theorem honourWrite_busy_done {r : Reg} (hr : r ≠ .cmd) (v : Word) (s : State) :
    (honourWrite r v s).busy = s.busy ∧ (honourWrite r v s).done = s.done := by
  cases r with
  | cmd => exact absurd rfl hr
  | status =>
    rw [honourWrite]
    split <;> exact ⟨rfl, rfl⟩
  | _ => exact ⟨rfl, rfl⟩

/-- A write of any register but CMD leaves BUSY and DONE, honoured or ignored (R24, R25, R54). -/
theorem writeReg_busy_done {r : Reg} (hr : r ≠ .cmd) (v : Word) (s : State) :
    (writeReg r v s).busy = s.busy ∧ (writeReg r v s).done = s.done := by
  unfold writeReg
  split
  · exact ⟨rfl, rfl⟩
  · exact honourWrite_busy_done hr v s

/-- A second write of the same FRAME`k` replaces the first. -/
theorem frameSet_frameSet (f : Frame) (k : Fin 4) (v w : Word) :
    frameSet (frameSet f k v) k w = frameSet f k w := by
  match k with
  | 0 | 1 | 2 | 3 => rfl

/-- A write honoured twice is the write honoured once (R55). For CMD this does not make the write of the
window idempotent, since the first one sets BUSY and the second is then ignored. -/
theorem honourWrite_idem (r : Reg) (v : Word) (s : State) :
    honourWrite r v (honourWrite r v s) = honourWrite r v s := by
  cases r with
  | status =>
    by_cases hv : v.getLsbD 2 = true
    · simp only [honourWrite, if_pos hv]; rfl
    · simp only [honourWrite, if_neg hv]
  | frame k => exact congrArg (fun f => { s with frame := f }) (frameSet_frameSet s.frame k v v)
  | _ => rfl

/-- A write of any register but CMD is idempotent: BUSY is as it was, so the second write is honoured or
ignored as the first (R55). -/
theorem writeReg_idem {r : Reg} (hr : r ≠ .cmd) (v : Word) (s : State) :
    writeReg r v (writeReg r v s) = writeReg r v s := by
  obtain ⟨hbusy, -⟩ := writeReg_busy_done hr v s
  by_cases hg : (guardedByBusy r && s.busy) = true
  · have hw : ∀ t : State, t.busy = s.busy → writeReg r v t = ignoreWrite t := fun t ht => by
      rw [writeReg, ht, if_pos hg]
    rw [hw _ hbusy, hw s rfl]
    rfl
  · have hw : ∀ t : State, t.busy = s.busy → writeReg r v t = honourWrite r v t := fun t ht => by
      rw [writeReg, ht, if_neg hg]
    rw [hw _ hbusy, hw s rfl, honourWrite_idem]

/-- CMD is selected by its own word alone (R21, R51). -/
theorem masked_offset_of_regAt_cmd :
    ∀ off : BitVec 8, regAt off = some .cmd → off &&& 0xFC = 0x04 := by decide +kernel

/-- Settles O39: the offset selects no register, or one whose write is idempotent. -/
theorem writesOtherThanCmdAreIdempotent : Obligations.WritesOtherThanCmdAreIdempotent := by
  unfold Obligations.WritesOtherThanCmdAreIdempotent
  intro s off v hoff
  cases hr : regAt off with
  | none => rw [writeWindow_of_regAt_none hr, writeWindow_of_regAt_none hr]
  | some r =>
    have hne : r ≠ .cmd := fun h => hoff (masked_offset_of_regAt_cmd off (h ▸ hr))
    rw [writeWindow_of_regAt hr, writeWindow_of_regAt hr, writeReg_idem hne]

end Sys2Proof.Machine

/-! SUPPORT. Runs: what every step does to the schedule, an induction over the steps of a run, and from
these the outcome that stays (R61) and the command that completes (R64, R95). -/

namespace Sys2Proof.Machine

/-- No write reaches the schedule (log entry 2). -/
@[simp] theorem writeWindow_schedule (off : BitVec 8) (v : Word) (s : State) :
    (writeWindow off v s).schedule = s.schedule := by
  rcases writeWindow_cases off v s with h | ⟨-, h⟩ | ⟨-, h⟩ | h | ⟨-, h⟩ | ⟨-, h⟩ | ⟨-, k, h⟩ <;>
    simp [h]

/-- No event reaches the events after it (log entry 2). -/
theorem StepCase.schedule_eq {s t : State} {e : Event} (h : StepCase s e t) :
    t.schedule = s.schedule := by
  cases h with
  | writes off v _ => exact (respond_schedule _ _).trans (writeWindow_schedule off v s)
  | _ => rfl

/-- A step takes one event off the schedule (R90). -/
theorem schedule_of_step {s t : State} (h : step s = .next t) : t.schedule = s.schedule.tail :=
  (stepCase_of_step h).schedule_eq

/-- No step moves TFD_BASE (R6). -/
theorem tfdBase_of_step {s t : State} (h : step s = .next t) : tfdBase t = tfdBase s :=
  tfdBase_eq_of_tfdPage_eq (stepCase_of_step h).tfdPage_eq

/-- What every step keeps, every run keeps; and every run answers (R210). -/
theorem runSteps_keeps {P : State → Prop} (hkeep : ∀ s t, P s → step s = .next t → P t) (k : Nat)
    {s : State} (hs : P s) : ∃ t, runSteps k s = .next t ∧ P t := by
  induction k generalizing s with
  | zero => exact ⟨s, rfl, hs⟩
  | succ k ih =>
    obtain ⟨u, hu, -⟩ := step_cases s
    rw [runSteps_succ k hu]
    exact ih (hkeep s u hs hu)

/-- The event starts no decode and abandons no outcome: it is no reset and no write of CMD (R61). -/
def Event.sparesOutcome (base : Nat) (e : Event) : Prop :=
  e ≠ .reset ∧ ∀ v, e ≠ .hostWrite (base + 0x04) 4 v

theorem engine_sparesOutcome (base : Nat) : Event.engine.sparesOutcome base :=
  ⟨nofun, nofun⟩

/-- An admitted write outside CMD leaves BUSY and DONE (R54). -/
theorem writeWindow_busy_done {off : BitVec 8} (ha : off &&& 3 = 0) (hoff : off ≠ 0x04) (v : Word)
    (s : State) : (writeWindow off v s).busy = s.busy ∧ (writeWindow off v s).done = s.done := by
  cases hr : regAt off with
  | none => rw [writeWindow_of_regAt_none hr]; exact ⟨rfl, rfl⟩
  | some r =>
    have hne : r ≠ .cmd := fun h => hoff ((regOffset_of_regAt ha hr).trans (congrArg regOffset h))
    rw [writeWindow_of_regAt hr]
    exact writeReg_busy_done hne v s

/-- With BUSY = 0, an event that spares the outcome leaves BUSY, DONE and the result registers (R61). -/
theorem StepCase.keeps_outcome {s t : State} {e : Event} (h : StepCase s e t) (hb : s.busy = false)
    (he : e.sparesOutcome (tfdBase s)) :
    t.results = s.results ∧ t.busy = s.busy ∧ t.done = s.done := by
  obtain ⟨hreset, hcmd⟩ := he
  cases h with
  | completes hb' => exact absurd (hb.symm.trans hb') (by decide)
  | resets => exact absurd rfl hreset
  | writes off v ha =>
    have hoff : off ≠ 0x04 := by
      rintro rfl
      exact hcmd v rfl
    exact ⟨writeWindow_results off v s, writeWindow_busy_done ha hoff v s⟩
  | _ => exact ⟨rfl, rfl, rfl⟩

/-- The outcome `r` stands committed, and no scheduled event takes it away (R61). -/
def outcomeHeld (r : Results) (s : State) : Prop :=
  s.results = r ∧ s.busy = false ∧ s.done = true ∧ ∀ e ∈ s.schedule, e.sparesOutcome (tfdBase s)

/-- The next event is a scheduled one or the engine's turn (R90, R95). -/
theorem nextEvent_mem_or_engine (s : State) : nextEvent s ∈ s.schedule ∨ nextEvent s = .engine := by
  cases hs : s.schedule with
  | nil => exact .inr (by simp [nextEvent, hs])
  | cons e rest => exact .inl (by simp [nextEvent, hs])

/-- Every step keeps a held outcome (R61). -/
theorem outcomeHeld_of_step {r : Results} {s t : State} (hs : outcomeHeld r s)
    (h : step s = .next t) : outcomeHeld r t := by
  obtain ⟨hresults, hbusy, hdone, hsched⟩ := hs
  have hnext : (nextEvent s).sparesOutcome (tfdBase s) := by
    rcases nextEvent_mem_or_engine s with hmem | heng
    · exact hsched _ hmem
    · exact heng ▸ engine_sparesOutcome _
  obtain ⟨hr, hb, hd⟩ := (stepCase_of_step h).keeps_outcome hbusy hnext
  refine ⟨hr.trans hresults, hb.trans hbusy, hd.trans hdone, fun e he => ?_⟩
  rw [schedule_of_step h] at he
  rw [tfdBase_of_step h]
  exact hsched e (List.mem_of_mem_tail he)

/-- Settles O43: a held outcome is kept over every run. -/
theorem outcomeStaysUntilTheNextCommand : Obligations.OutcomeStaysUntilTheNextCommand := by
  unfold Obligations.OutcomeStaysUntilTheNextCommand
  intro k s hbusy hdone hsched
  have hheld : outcomeHeld s.results s := ⟨rfl, hbusy, hdone, hsched⟩
  obtain ⟨t, hrun, hr, hb, hd, -⟩ := runSteps_keeps (fun _ _ => outcomeHeld_of_step) k hheld
  exact ⟨t, hrun, hr, hb, hd⟩

/-- `Decode` of the inputs as they stand, as the completion step calls it (R93). -/
def inFlightOutcome (s : State) : DecodeOutcome :=
  decodeFrame s.pendingVar s.lenBits s.frame s.se3ParityEn

theorem inFlightOutcome_congr {s t : State} (h : sameInputs s t) :
    inFlightOutcome t = inFlightOutcome s := by
  obtain ⟨henf, hlen, hframe, hvar⟩ := h
  simp only [inFlightOutcome, henf, hlen, hframe, hvar]

theorem sameInputs.trans {s t u : State} (h₁ : sameInputs s t) (h₂ : sameInputs t u) :
    sameInputs s u := by
  obtain ⟨e₁, l₁, f₁, v₁⟩ := h₁
  obtain ⟨e₂, l₂, f₂, v₂⟩ := h₂
  exact ⟨e₂.trans e₁, l₂.trans l₁, f₂.trans f₁, v₂.trans v₁⟩

/-- The completion step (R93). -/
theorem step_of_nextEvent_engine {s : State} (hb : s.busy = true) (he : nextEvent s = .engine) :
    step s = .next (complete (inFlightOutcome s) (afterFetch s)) := by
  rw [step_eq_perform, he]
  rcases engineTurn_cases (afterFetch s) with ⟨hidle, -⟩ | ⟨-, h⟩
  · exact absurd (hb.symm.trans hidle) (by decide)
  · exact h

/-- No write clears BUSY (R24, R54). -/
theorem writeWindow_busy {s : State} (hb : s.busy = true) (off : BitVec 8) (v : Word) :
    (writeWindow off v s).busy = true := by
  rcases writeWindow_cases off v s with h | ⟨-, h⟩ | ⟨-, h⟩ | h | ⟨-, h⟩ | ⟨-, h⟩ | ⟨-, k, h⟩ <;>
    simp [h, hb]

/-- BUSY is cleared by a completion or a reset alone (R24, R93, R240). -/
theorem StepCase.keeps_busy {s t : State} {e : Event} (h : StepCase s e t) (hb : s.busy = true)
    (hengine : e ≠ .engine) (hreset : e ≠ .reset) : t.busy = true := by
  cases h with
  | completes _ => exact absurd rfl hengine
  | resets => exact absurd rfl hreset
  | writes off v _ => exact writeWindow_busy hb off v
  | _ => exact hb

/-- `t` is a state in which the command in flight in `s` has completed, with the inputs of `s` (R64). -/
def completedWithInputsOf (s t : State) : Prop :=
  t.busy = false ∧ t.done = true ∧ t.results = commit (inFlightOutcome s) ∧ sameInputs s t

/-- The inputs being equal, it does not matter from where the completion is seen. -/
theorem completedWithInputsOf.of_sameInputs {s u t : State} (h : sameInputs s u)
    (hc : completedWithInputsOf u t) : completedWithInputsOf s t := by
  obtain ⟨hb, hd, hr, hi⟩ := hc
  exact ⟨hb, hd, by rw [hr, inFlightOutcome_congr h], h.trans hi⟩

/-- The engine's turn completes the command in flight (R93). -/
theorem runSteps_one_completes {s : State} (hb : s.busy = true) (he : nextEvent s = .engine) :
    ∃ t, runSteps 1 s = .next t ∧ completedWithInputsOf s t :=
  ⟨_, runSteps_succ 0 (step_of_nextEvent_engine hb he), rfl, rfl, rfl, rfl, rfl, rfl, rfl⟩

/-- Without a reset the command in flight completes within one step more than the schedule is long: by
induction on the schedule, each event being the engine's turn or a host access that leaves BUSY and the
inputs (R64, R95). -/
theorem exists_run_completes (es : List Event) {s : State} (hs : s.schedule = es) (hb : s.busy = true)
    (hreset : Event.reset ∉ es) :
    ∃ k t, k ≤ es.length + 1 ∧ runSteps k s = .next t ∧ completedWithInputsOf s t := by
  induction es generalizing s with
  | nil =>
    obtain ⟨t, hrun, hc⟩ := runSteps_one_completes hb (by simp [nextEvent, hs])
    exact ⟨1, t, by simp, hrun, hc⟩
  | cons e rest ih =>
    have hnext : nextEvent s = e := by simp [nextEvent, hs]
    obtain ⟨hne, hrest⟩ := List.ne_and_not_mem_of_not_mem_cons hreset
    by_cases he : e = .engine
    · obtain ⟨t, hrun, hc⟩ := runSteps_one_completes hb (hnext.trans he)
      exact ⟨1, t, by simp, hrun, hc⟩
    · obtain ⟨u, hu, hcase⟩ := step_cases s
      rw [hnext] at hcase
      have hus : u.schedule = rest := by rw [schedule_of_step hu, hs, List.tail_cons]
      have hub : u.busy = true := hcase.keeps_busy hb he (Ne.symm hne)
      have hinputs : sameInputs s u := hcase.keeps_inputs hb (Ne.symm hne)
      obtain ⟨k, t, hk, hrun, hc⟩ := ih hus hub hrest
      exact ⟨k + 1, t, Nat.succ_le_succ hk, (runSteps_succ k hu).trans hrun, hc.of_sameInputs hinputs⟩

/-- Settles O51: `exists_run_completes` on the schedule of the state. -/
theorem commandInFlightCompletesWithItsOwnInputs :
    Obligations.CommandInFlightCompletesWithItsOwnInputs := by
  unfold Obligations.CommandInFlightCompletesWithItsOwnInputs
  intro s hb hreset
  obtain ⟨k, t, hk, hrun, hbusy, hdone, hresults, henf, hlen, hframe, hvar⟩ :=
    exists_run_completes s.schedule rfl hb hreset
  exact ⟨k, t, hk, hrun, hbusy, hdone, hresults, hlen, hframe, henf, hvar⟩

/-- Every register is at a 4-aligned offset (R21). -/
theorem regOffset_and_three (r : Reg) : regOffset r &&& 3 = 0 := by
  cases r with
  | frame k => revert k; decide
  | payload k => revert k; decide
  | _ => rfl

/-- A write of a register that BUSY guards, at the step before the completion: it only sets WERR, and the
completion commits the outcome of the inputs as they stood (R243, P4). -/
theorem runSteps_write_then_engine {s : State} {r : Reg} (hb : s.busy = true)
    (hg : guardedByBusy r = true) (v : Word) (rest : List Event) :
    runSteps 2 (withSchedule (.hostWrite (tfdBase s + (regOffset r).toNat) 4 v :: .engine :: rest) s) =
      .next (respond .done (withSchedule rest (complete (inFlightOutcome s) (ignoreWrite s)))) := by
  have hfirst := step_hostWrite_admitted (regOffset_and_three r)
    (s := withSchedule (.hostWrite (tfdBase s + (regOffset r).toNat) 4 v :: .engine :: rest) s)
    (v := v) (rest := .engine :: rest) rfl
  rw [writeWindow_withSchedule, writeWindow_guarded hg, if_pos hb] at hfirst
  rw [runSteps_succ 1 hfirst]
  exact runSteps_succ 0 (step_of_nextEvent_engine hb rfl)

/-- The same write at the step after the completion: it is honoured, and the outcome committed is the same
(R64, P4). -/
theorem runSteps_engine_then_write {s : State} {r : Reg} (hb : s.busy = true)
    (hg : guardedByBusy r = true) (v : Word) (rest : List Event) :
    runSteps 2 (withSchedule (.engine :: .hostWrite (tfdBase s + (regOffset r).toNat) 4 v :: rest) s) =
      .next (respond .done (withSchedule rest (honourWrite r v (complete (inFlightOutcome s) s)))) := by
  have hfirst := step_of_nextEvent_engine
    (s := withSchedule (.engine :: .hostWrite (tfdBase s + (regOffset r).toNat) 4 v :: rest) s) hb rfl
  have hsecond := step_hostWrite_admitted (regOffset_and_three r)
    (s := withSchedule (.hostWrite (tfdBase s + (regOffset r).toNat) 4 v :: rest)
      (complete (inFlightOutcome s) s)) (v := v) (rest := rest) rfl
  rw [writeWindow_withSchedule, writeWindow_guarded hg, if_neg (by simp)] at hsecond
  rw [runSteps_succ 1 hfirst]
  exact runSteps_succ 0 hsecond

/-- The six racing offsets of O44 are those of registers that BUSY guards (R26, R243). -/
theorem exists_guarded_of_racing_offset :
    ∀ off ∈ [0x00, 0x0C, 0x10, 0x14, 0x18, 0x1C],
      ∃ r : Reg, guardedByBusy r = true ∧ off = (regOffset r).toNat := by
  simp only [List.forall_mem_cons]
  exact ⟨⟨.ctrl, rfl, rfl⟩, ⟨.len, rfl, rfl⟩, ⟨.frame 0, rfl, rfl⟩, ⟨.frame 1, rfl, rfl⟩,
    ⟨.frame 2, rfl, rfl⟩, ⟨.frame 3, rfl, rfl⟩, nofun⟩

/-- Settles O44: the two orders of the write and the completion, for each of the racing registers. -/
theorem racingFrameWriteDoesNotChangeTheOutcome :
    Obligations.RacingFrameWriteDoesNotChangeTheOutcome := by
  unfold Obligations.RacingFrameWriteDoesNotChangeTheOutcome
  intro s v rest hb
  have writeFirst (r : Reg) (hg : guardedByBusy r = true) := runSteps_write_then_engine hb hg v rest
  have writeLast (r : Reg) (hg : guardedByBusy r = true) := runSteps_engine_then_write hb hg v rest
  refine ⟨fun off hoff => ?_, writeLast .ctrl rfl, writeLast .len rfl, writeLast (.frame 0) rfl,
    writeLast (.frame 1) rfl, writeLast (.frame 2) rfl, writeLast (.frame 3) rfl⟩
  obtain ⟨r, hg, rfl⟩ := exists_guarded_of_racing_offset off hoff
  exact writeFirst r hg

end Sys2Proof.Machine

/-! SUPPORT. The command word both ways: a word is its ignored bits above its command's VARIANT (R70), so
decoding and encoding undo each other (R71 to R73), and the write of CMD sees VARIANT alone. -/

namespace Sys2Proof

/-- A word is the encoding of its command with the word's own ignored bits (R70, R71). -/
theorem encodeWith_decodeWord (w : Word) : encodeWith (w.extractLsb' 2 30) (decodeWord w) = w := by
  rw [encodeWith, decodeWord, variantCode_decodeVariant, commandVariant]
  exact BitVec.extractLsb'_append_extractLsb' (w := 30) (len := 2)

/-- The ignored bits of an encoded word are the ones it was given (R70). -/
theorem extractLsb'_encodeWith (ignored : BitVec 30) (i : Instr) :
    (encodeWith ignored i).extractLsb' 2 30 = ignored :=
  BitVec.extractLsb'_append_eq_left

/-- The command word software should write has its ignored bits zero (R73). -/
theorem canonicalCommandWord_encodeWord (i : Instr) : canonicalCommandWord (encodeWord i) = true :=
  beq_iff_eq.mpr (extractLsb'_encodeWith 0 i)

/-- A word whose ignored bits are zero is the one software should write for its command (R73). -/
theorem encodeWord_decodeWord {w : Word} (h : canonicalCommandWord w = true) :
    encodeWord (decodeWord w) = w := by
  have hzero : w.extractLsb' 2 30 = 0 := beq_iff_eq.mp h
  calc encodeWord (decodeWord w) = encodeWith (w.extractLsb' 2 30) (decodeWord w) := by
        rw [hzero, encodeWord]
    _ = w := encodeWith_decodeWord w

/-- Fewer bytes than a command word has are rejected (R70). -/
theorem decode_of_length_lt {bytes : List Byte} (h : bytes.length < 4) :
    decode bytes = .error .truncatedWord := by
  match bytes with
  | [] | [_] | [_, _] | [_, _, _] => rfl
  | _ :: _ :: _ :: _ :: rest => exact absurd h (by simp)

/-- A word's bytes name the command its ignored bits were put above (R71, R73). -/
theorem decode_wordBytes_encodeWith (ignored : BitVec 30) (i : Instr) (rest : List Byte) :
    decode (wordBytes (encodeWith ignored i) ++ rest) = .ok (i, rest) := by
  rw [decode_wordBytes, Laws.decodeWord_encodeWith]

/-- Settles O2: decoding after encoding by `decode_wordBytes_encodeWith`, encoding after decoding by
`encodeWith_decodeWord`, and the cut-off words by their length. -/
theorem decodeAndEncodeAgree : Obligations.DecodeAndEncodeAgree := by
  unfold Obligations.DecodeAndEncodeAgree
  exact ⟨fun i ignored rest => decode_wordBytes_encodeWith ignored i rest,
    fun i rest => ⟨canonicalCommandWord_encodeWord i, decode_wordBytes_encodeWith 0 i rest⟩,
    fun w rest => ⟨decode_wordBytes w rest, encodeWith_decodeWord w,
      fun h => congrArg wordBytes (encodeWord_decodeWord h)⟩,
    fun _ h => decode_of_length_lt h⟩

/-- Settles O3: a word is its command's encoding with some ignored bits, whose row is that command's
alone (`Laws.encodesItself`). -/
theorem tableRowMatchesExactlyItsCommand : Obligations.TableRowMatchesExactlyItsCommand := by
  unfold Obligations.TableRowMatchesExactlyItsCommand
  intro w i
  obtain ⟨-, hrow⟩ := Laws.encodesItself (decodeWord w) (w.extractLsb' 2 30)
  rw [encodeWith_decodeWord] at hrow
  exact (hrow i).trans eq_comm

/-- Settles O1: nine fixed words, each decoded by its bits 1:0. -/
theorem commandWordsDecodeAsTheTableSays : Obligations.CommandWordsDecodeAsTheTableSays := by
  unfold Obligations.CommandWordsDecodeAsTheTableSays
  decide

namespace Machine

/-- A host's write of a register, at the register's own address (R21, R54). -/
theorem hostWrite_regOffset (r : Reg) (v : Word) (s : State) :
    hostWrite (tfdBase s + (regOffset r).toNat) 4 v s = respond .done (writeReg r v s) := by
  rw [hostWrite_admitted s _ v (regOffset_and_three r), writeWindow_of_regAt (regAt_regOffset r)]

/-- A write of CMD sees VARIANT alone (R54, R73). -/
theorem writeReg_cmd_congr {w w' : Word} (h : commandVariant w = commandVariant w') (s : State) :
    writeReg .cmd w s = writeReg .cmd w' s := by
  rw [writeReg, writeReg, honourWrite, honourWrite, h]

/-- Settles O4: the decoder and the write of CMD both read the word by `commandVariant`. -/
theorem wordsAgreeingInVariantAreOneCommand : Obligations.WordsAgreeingInVariantAreOneCommand := by
  unfold Obligations.WordsAgreeingInVariantAreOneCommand
  intro w w' h
  have hvariant : commandVariant w = commandVariant w' := h
  refine ⟨congrArg decodeVariant hvariant, fun s => ?_⟩
  calc hostWrite (tfdBase s + 0x04) 4 w s = respond .done (writeReg .cmd w s) :=
        hostWrite_regOffset .cmd w s
    _ = respond .done (writeReg .cmd w' s) := by rw [writeReg_cmd_congr hvariant]
    _ = hostWrite (tfdBase s + 0x04) 4 w' s := (hostWrite_regOffset .cmd w' s).symm

end Machine

end Sys2Proof

/-! SUPPORT. A command from its write to its completion: the write is accepted (R92), and the step after it
runs the command the word decodes to (R72, R93). -/

namespace Sys2Proof.Machine

/-- The step of a scheduled write of a register (R54, R91). -/
theorem step_wrReg {s : State} {r : Reg} {v : Word} {rest : List Event}
    (hs : s.schedule = (wrReg r v).event (tfdBase s) :: rest) :
    step s = .next (respond .done (withSchedule rest (writeReg r v s))) := by
  rw [step_hostWrite_admitted (regOffset_and_three r) hs, writeWindow_of_regAt (regAt_regOffset r)]

/-- With BUSY = 0 no write is ignored for it (R26, R54). -/
theorem writeReg_of_not_busy {s : State} (hb : s.busy = false) (r : Reg) (v : Word) :
    writeReg r v s = honourWrite r v s := by
  simp [writeReg, hb]

/-- The state right after an accepted write of CMD (R91, R92). -/
def acceptedState (v : Word) (rest : List Event) (s : State) : State :=
  respond .done (withSchedule rest (accept (commandVariant v) s))

/-- The step of a write of CMD with BUSY = 0 (R92). -/
theorem step_accepts {s : State} {v : Word} {rest : List Event} (hb : s.busy = false)
    (hs : s.schedule = .hostWrite (tfdBase s + 0x04) 4 v :: rest) :
    step s = .next (acceptedState v rest s) := by
  rw [step_wrReg (r := .cmd) hs, writeReg_of_not_busy hb, honourWrite, acceptedState]

/-- With BUSY = 1 the engine's turn runs the command in flight (R93). -/
theorem engineTurn_busy {s : State} (hb : s.busy = true) :
    engineTurn s = exec (decodeWord (latchedWord s)) s :=
  if_pos hb

/-- The engine's turn right after an acceptance runs the command the word decodes to (R72, R93). -/
theorem step_acceptedState (v : Word) (rest : List Event) (s : State) :
    step (acceptedState v (.engine :: rest) s) = exec (decodeWord v) (acceptedState v rest s) := by
  calc step (acceptedState v (.engine :: rest) s)
      = perform .engine (acceptedState v rest s) := step_of_schedule (rest := rest) rfl
    _ = exec (decodeWord (latchedWord (acceptedState v rest s))) (acceptedState v rest s) :=
        engineTurn_busy rfl
    _ = exec (decodeWord v) (acceptedState v rest s) := by rw [decodeWord_latchedWord]; rfl

/-- A run of one step is that step. -/
theorem runSteps_one (s : State) : runSteps 1 s = step s := by
  obtain ⟨t, ht, -⟩ := step_cases s
  rw [runSteps_succ 0 ht, ht, runSteps_zero]

/-- A command from its write of CMD with BUSY = 0 to its completion is `exec` of the command its word
decodes to, on the state right after the acceptance (R72, R92, R93). -/
theorem runSteps_command {s : State} {v : Word} {rest : List Event} (hb : s.busy = false)
    (hs : s.schedule = .hostWrite (tfdBase s + 0x04) 4 v :: .engine :: rest) :
    runSteps 2 s = exec (decodeWord v) (acceptedState v rest s) := by
  rw [runSteps_succ 1 (step_accepts hb hs), runSteps_one, step_acceptedState]

/-- Settles O10: `runSteps_command`, with what `exec` commits (`exec_eq`). -/
theorem everyWordWrittenToCmdIsDecodedByItsVariant :
    Obligations.EveryWordWrittenToCmdIsDecodedByItsVariant := by
  unfold Obligations.EveryWordWrittenToCmdIsDecodedByItsVariant
  intro s v rest hb hs
  have hrun := runSteps_command hb hs
  exact ⟨hrun.trans (exec_eq (decodeWord v) (acceptedState v rest s)), hrun⟩

end Sys2Proof.Machine

/-! SUPPORT. Host programs: each access of a list placed first in the schedule is one step (R81), which
gives the pseudo-instructions their effects (R82). -/

namespace Sys2Proof.Machine

@[simp] theorem withAccesses_nil (s : State) : withAccesses [] s = s := rfl

/-- A write placed first is performed by the first step; the accesses after it are placed as they were
(R54, R81). -/
theorem runSteps_wrReg_cons (k : Nat) (r : Reg) (v : Word) (as : List HostAccess) (s : State) :
    runSteps (k + 1) (withAccesses (wrReg r v :: as) s) =
      runSteps k (withAccesses as (respond .done (writeReg r v s))) := by
  have hw : writeWindow (regOffset r) v s = writeReg r v s :=
    writeWindow_of_regAt (regAt_regOffset r) v s
  have hbase : tfdBase (respond .done (writeReg r v s)) = tfdBase s :=
    tfdBase_eq_of_tfdPage_eq (hw ▸ writeWindow_tfdPage _ v s)
  have hsched : (respond .done (writeReg r v s)).schedule = s.schedule :=
    hw ▸ writeWindow_schedule _ v s
  have hstep := step_hostWrite_admitted (regOffset_and_three r)
    (s := withAccesses (wrReg r v :: as) s) (v := v) rfl
  rw [withAccesses, writeWindow_withSchedule, hw] at hstep
  rw [withAccesses, runSteps_succ k hstep, withAccesses, hbase, hsched]
  rfl

/-- A read placed first is answered by the first step; the accesses after it are placed as they were
(R53, R81). -/
theorem runSteps_rdReg_cons (k : Nat) (r : Reg) (as : List HostAccess) (s : State) :
    runSteps (k + 1) (withAccesses (rdReg r :: as) s) =
      runSteps k (withAccesses as (respond (.data (readReg s r)) s)) := by
  have hstep := step_hostRead_admitted (regOffset_and_three r)
    (s := withAccesses (rdReg r :: as) s) rfl
  rw [readWindow_regOffset] at hstep
  rw [runSteps_succ k hstep]
  rfl

/-- A poll of any length changes no register and answers the register (R81). -/
theorem runSteps_pollReads (r : Reg) (extra : Nat) (s : State) :
    runSteps (extra + 1) (withAccesses (pollReads r extra) s) =
      .next (respond (.data (readReg s r)) s) := by
  induction extra generalizing s with
  | zero => exact runSteps_rdReg_cons 0 r [] s
  | succ extra ih => exact (runSteps_rdReg_cons (extra + 1) r (pollReads r extra) s).trans (ih _)

/-- WAIT's poll ends exactly at BUSY = 0 and DONE = 1 (R24, R82). -/
theorem pollEnds_wait_statusWord (s : State) :
    pollEnds waitMask waitValue (statusWord s) = (!s.busy && s.done) := by
  have key : ∀ b d w : Bool, pollEnds waitMask waitValue
      ((if b = true then 1 else 0) + (if d = true then 2 else 0) + (if w = true then 4 else 0)) =
        (!b && d) := by decide
  rw [statusWord_eq]
  exact key s.busy s.done s.werr

/-- CLRWERR clears WERR, with BUSY = 1 too (R26, R82). -/
theorem runSteps_clrwerr (s : State) :
    runSteps 1 (withAccesses (expand .clrwerr) s) = .next (respond .done (clearWerr s)) := by
  rw [expand, runSteps_wrReg_cons, writeReg_unguarded rfl, honourWrite, if_pos (by decide),
    withAccesses_nil, runSteps_zero]

/-- ENFORCE, with BUSY = 0, leaves its setting in CTRL (R22, R82). -/
theorem runSteps_enforce {s : State} (hb : s.busy = false) (v : Word) :
    runSteps 1 (withAccesses [wrReg .ctrl v] s) = .next (respond .done (setCtrl v s)) := by
  rw [runSteps_wrReg_cons, writeReg_of_not_busy hb, honourWrite, withAccesses_nil, runSteps_zero]

/-- The state LOAD leaves with BUSY = 0: the frame in FRAME0 to FRAME3, its length in LEN (R27, R28,
R82). -/
def loadedState (w0 w1 w2 w3 n : Word) (s : State) : State :=
  { s with frame := { w0 := w0, w1 := w1, w2 := w2, w3 := w3 }, lenBits := n.extractLsb' 0 16
           response := .done }

/-- Two states with the same fields are the same state. -/
theorem State.eq_of_fields {s t : State} (henf : s.se3ParityEn = t.se3ParityEn)
    (hbusy : s.busy = t.busy) (hdone : s.done = t.done) (hwerr : s.werr = t.werr)
    (hlen : s.lenBits = t.lenBits) (hframe : s.frame = t.frame) (hresults : s.results = t.results)
    (hvar : s.pendingVar = t.pendingVar) (hpage : s.tfdPage = t.tfdPage)
    (hresponse : s.response = t.response) (hschedule : s.schedule = t.schedule) : s = t := by
  cases s
  cases t
  rw [State.mk.injEq]
  exact ⟨henf, hbusy, hdone, hwerr, hlen, hframe, hresults, hvar, hpage, hresponse, hschedule⟩

/-- The four writes of FRAME0 to FRAME3 and the write of LEN, one after another (R27, R28, R54). -/
theorem respond_setLen_setFrames (w0 w1 w2 w3 n : Word) (s : State) :
    respond .done (setLen n (respond .done (setFrame 3 w3 (respond .done (setFrame 2 w2
      (respond .done (setFrame 1 w1 (respond .done (setFrame 0 w0 s))))))))) =
      loadedState w0 w1 w2 w3 n s := by
  apply State.eq_of_fields <;> simp [loadedState, frameSet]

/-- LOAD, with BUSY = 0: none of its five writes is ignored (R54, R82). -/
theorem runSteps_load {s : State} (hb : s.busy = false) (w0 w1 w2 w3 n : Word) :
    runSteps 5 (withAccesses (expand (.load w0 w1 w2 w3 n)) s) = .next (loadedState w0 w1 w2 w3 n s) := by
  simp only [expand, runSteps_wrReg_cons, writeReg_of_not_busy, honourWrite, respond_busy,
    setFrame_busy, hb, withAccesses_nil, runSteps_zero, respond_setLen_setFrames]

/-- Settles O40: each expansion is its table line, and its effect is that of its accesses one by one
(`runSteps_wrReg_cons`, `runSteps_rdReg_cons`). -/
theorem pseudoInstructionsStandForTheirAccesses :
    Obligations.PseudoInstructionsStandForTheirAccesses := by
  unfold Obligations.PseudoInstructionsStandForTheirAccesses
  have status (s : State) : readWindow s 0x08 = statusWord s := readWindow_regOffset .status s
  refine ⟨⟨rfl, rfl⟩, ⟨rfl, rfl⟩, ⟨rfl, rfl⟩, fun _ => rfl, rfl, rfl, rfl, fun _ _ _ _ _ => rfl,
    fun _ _ _ => ⟨rfl, rfl⟩, fun s extra => ?wait, fun s => ?waitEnds, runSteps_clrwerr,
    fun s hb => ⟨runSteps_enforce hb 1, runSteps_enforce hb 0⟩,
    fun s w0 w1 w2 w3 n hb => runSteps_load hb w0 w1 w2 w3 n⟩
  case wait =>
    rw [status]
    exact runSteps_pollReads .status extra s
  case waitEnds =>
    rw [status]
    exact pollEnds_wait_statusWord s

end Sys2Proof.Machine

/-! SUPPORT. The engine's turn (R90, R93): with a command in flight it is `exec` of that command, which
commits `Decode` of the inputs as they stand; without one it idles. -/

namespace Sys2Proof.Machine

/-- Where the engine has its turn next, the next event is it (R90, R95). -/
theorem nextEvent_of_engineNext {s : State} (h : engineNext s) : nextEvent s = .engine := by
  rcases h with hnil | hhead
  · rw [nextEvent, hnil, List.head?_nil, Option.getD_none]
  · rw [nextEvent, hhead, Option.getD_some]

/-- Where the engine has its turn next, the step is that turn, on the state after the fetch (R90). -/
theorem step_of_engineNext {s : State} (h : engineNext s) : step s = engineTurn (afterFetch s) := by
  rw [step_eq_perform, nextEvent_of_engineNext h, perform]

/-- With BUSY = 1 the engine's turn is `exec` of the command PENDING_VAR names (R39, R93). -/
theorem step_runs_pendingVar {s : State} (hb : s.busy = true) (h : engineNext s) :
    step s = exec (decodeVariant s.pendingVar) (afterFetch s) := by
  rw [step_of_engineNext h, engineTurn_busy (s := afterFetch s) hb, decodeWord_latchedWord,
    afterFetch_pendingVar]

/-- Settles O8: the completion step commits the outcome in flight (`step_of_nextEvent_engine`). -/
theorem completionCommitsDecodeOfTheRegisters : Obligations.CompletionCommitsDecodeOfTheRegisters := by
  unfold Obligations.CompletionCommitsDecodeOfTheRegisters
  intro s hb hnext
  exact step_of_nextEvent_engine hb (nextEvent_of_engineNext hnext)

/-- Settles O9: the engine's turn is not enabled, so that only the fetch is left of the step. -/
theorem engineIdlesWithoutACommand : Obligations.EngineIdlesWithoutACommand := by
  unfold Obligations.EngineIdlesWithoutACommand
  intro s hb hnext
  rw [step_of_engineNext hnext]
  rcases engineTurn_cases (afterFetch s) with ⟨-, hidle⟩ | ⟨hbusy, -⟩
  · exact hidle
  · exact absurd (hb.symm.trans hbusy) (by decide)

/-- The command that the bytes of the latched word decode to is the one PENDING_VAR names (R39). -/
theorem decodeVariant_pendingVar_of_decode {s : State} {i : Instr}
    (h : decode (wordBytes (latchedWord s)) = .ok (i, [])) : decodeVariant s.pendingVar = i := by
  rw [← List.append_nil (wordBytes (latchedWord s)), decode_wordBytes, decodeWord_latchedWord] at h
  injection h with hpair
  exact congrArg Prod.fst hpair

/-- Settles O6: `step_runs_pendingVar`, with nothing to fetch and with the engine's turn fetched. -/
theorem stepRunsTheCommandInFlight : Obligations.StepRunsTheCommandInFlight := by
  unfold Obligations.StepRunsTheCommandInFlight
  intro s i hb hdecode
  have hvar := decodeVariant_pendingVar_of_decode hdecode
  refine ⟨fun hnil => ?nothingScheduled, fun rest hrest => ?engineScheduled⟩
  case nothingScheduled =>
    have hfetch : afterFetch s = s := by
      rw [afterFetch, hnil, List.tail_nil, ← hnil]
      rfl
    rw [step_runs_pendingVar hb (.inl hnil), hvar, hfetch]
  case engineScheduled =>
    have hhead : s.schedule.head? = some .engine := by rw [hrest, List.head?_cons]
    rw [step_runs_pendingVar hb (.inr hhead), hvar, afterFetch, hrest, List.tail_cons]
    rfl

/-- With `engineFirst` the engine's turn comes next, from the schedule or with nothing scheduled (R95, log
entry 2). -/
theorem engineFirst_head (es : List Event) :
    engineFirst es = [] ∨ (engineFirst es).head? = some .engine := by
  cases es with
  | nil => exact .inl rfl
  | cons e rest => exact .inr rfl

/-- Taking the turn that `engineFirst` put first leaves the schedule as it was. -/
theorem engineFirst_tail (es : List Event) : (engineFirst es).tail = es := by
  cases es with
  | nil => rfl
  | cons e rest => rfl

/-- The engine has its turn next after a command is placed (R90, log entry 5). -/
theorem engineNext_commandInFlight (w : Word) (s : State) : engineNext (commandInFlight w s) :=
  engineFirst_head s.schedule

/-- The fetch after a command is placed takes the turn put first, and leaves the acceptance (R92, log
entry 5). -/
theorem afterFetch_commandInFlight (w : Word) (s : State) :
    afterFetch (commandInFlight w s) = accept (commandVariant w) s :=
  congrArg (withSchedule · (accept (commandVariant w) s)) (engineFirst_tail s.schedule)

/-- Settles O7: a placed command is in flight with the engine's turn next. -/
theorem placedCommandRunsNext : Obligations.PlacedCommandRunsNext := by
  unfold Obligations.PlacedCommandRunsNext
  intro s w
  have hword : BitVec.ofNat 32 (w % 2 ^ 32) = BitVec.ofNat 32 w :=
    BitVec.eq_of_toNat_eq (Nat.mod_mod w (2 ^ 32))
  rw [State.withFetchWord, hword,
    step_runs_pendingVar rfl (engineNext_commandInFlight (BitVec.ofNat 32 w) s),
    afterFetch_commandInFlight]
  rfl

/-- Settles O19: both steps commit `Decode` of the same inputs (`inFlightOutcome_congr`). -/
theorem equalInputsCommitEqualOutcomes : Obligations.EqualInputsCommitEqualOutcomes := by
  unfold Obligations.EqualInputsCommitEqualOutcomes
  intro s s' hb hb' hnext hnext' hvar henf hlen hframe
  have hinputs : sameInputs s' s := ⟨henf, hlen, hframe, hvar⟩
  exact ⟨_, _, step_of_nextEvent_engine hb (nextEvent_of_engineNext hnext),
    step_of_nextEvent_engine hb' (nextEvent_of_engineNext hnext'),
    congrArg commit (inFlightOutcome_congr hinputs)⟩

/-- Settles O14: VARIANT = 3 selects the reserved command, whose outcome has no operand. -/
theorem reservedCommandIsBadVariant : Obligations.ReservedCommandIsBadVariant := by
  unfold Obligations.ReservedCommandIsBadVariant
  refine ⟨fun w hw => congrArg decodeVariant hw, fun s => ?_⟩
  have hcommit : commit decodeReserved = resultOnly 0x00333334 := by decide
  rw [exec_eq, commandOutcome, complete, hcommit]

/-- Settles O5: the step of a write of CMD, honoured with BUSY = 0 and ignored with BUSY = 1. -/
theorem acceptanceLatchesVariantAndSetsBusy : Obligations.AcceptanceLatchesVariantAndSetsBusy := by
  unfold Obligations.AcceptanceLatchesVariantAndSetsBusy
  intro s v rest hs
  refine ⟨fun hb => step_accepts hb hs, fun hb => ?_⟩
  rw [step_wrReg (r := .cmd) hs, writeReg_guarded rfl, if_pos hb]
  rfl

end Sys2Proof.Machine

/-! SUPPORT. What an outcome depends on: of the frame, the extracted range alone (R102, R124); of what came
before, CTRL, LEN and FRAME alone (R103), which no command changes. -/

namespace Sys2Proof.Machine

/-- Frames that agree from `lo` to `hi` have the same bytes there. -/
theorem frameBytes_of_sameBits {f g : Frame} {lo hi n : Nat} (h : sameBits f g lo hi)
    (hn : lo + 8 * n ≤ hi + 1) : frameBytes f lo n = frameBytes g lo n :=
  frameBytes_congr fun i h₁ h₂ => h i h₁ (by omega)

/-- Frames that agree from `lo` to `hi` have the same fields there. -/
theorem frameField_of_sameBits {f g : Frame} {lo hi k n : Nat} (h : sameBits f g lo hi)
    (hk : lo ≤ k) (hn : k + n ≤ hi + 1) : frameField f k n = frameField g k n :=
  frameField_congr fun i h₁ h₂ => h i (by omega) (by omega)

/-- DECODE_CLASSIC reads frame bits 4 to 67 alone (R152). -/
theorem decodeClassic_of_sameBits {f g : Frame} (h : sameBits f g 4 67) (len : FrameLen) :
    decodeClassic len f = decodeClassic len g := by
  by_cases hlen : len = 68
  · rw [hlen, decodeClassic_68, decodeClassic_68, frameBytes_of_sameBits h (by decide)]
  · rw [decodeClassic_length f hlen, decodeClassic_length g hlen]

/-- DECODE_EG53MA4 reads frame bits 40 to 119 alone (R172). -/
theorem decodeEg53ma4_of_sameBits {f g : Frame} (h : sameBits f g 40 119) (len : FrameLen) :
    decodeEg53ma4 len f = decodeEg53ma4 len g := by
  by_cases hlen : len = 120
  · rw [hlen, decodeEg53ma4_120, decodeEg53ma4_120, frameBytes_of_sameBits h (by decide)]
  · rw [decodeEg53ma4_length f hlen, decodeEg53ma4_length g hlen]

/-- DECODE_SE3 reads frame bits 16 to 51 alone (R192). -/
theorem decodeSe3_of_sameBits {f g : Frame} (h : sameBits f g 16 51) (len : FrameLen) (enf : Bool) :
    decodeSe3 len f enf = decodeSe3 len g enf := by
  by_cases hlen : len = 52 ∨ len = 53
  · rw [decodeSe3_accepted f enf hlen, decodeSe3_accepted g enf hlen,
      frameBytes_of_sameBits h (by decide), frameField_of_sameBits h (k := 48) (by decide) (by decide)]
  · obtain ⟨h52, h53⟩ := not_or.mp hlen
    rw [decodeSe3_length f enf h52 h53, decodeSe3_length g enf h52 h53]

/-- Settles O21: each variant's decode from the frame bits it extracts. -/
theorem discardedAndTrailingBitsAreNotRead : Obligations.DiscardedAndTrailingBitsAreNotRead := by
  unfold Obligations.DiscardedAndTrailingBitsAreNotRead
  exact fun _ _ len enf => ⟨fun h => decodeClassic_of_sameBits h len,
    fun h => decodeEg53ma4_of_sameBits h len, fun h => decodeSe3_of_sameBits h len enf⟩

/-- The state `t` is ready for a command as `s` is, with `rest` scheduled: BUSY = 0, and CTRL, LEN, FRAME
and TFD_BASE as in `s` (R92, R103). -/
structure ReadyAs (s : State) (rest : List Event) (t : State) : Prop where
  busy : t.busy = false
  se3ParityEn : t.se3ParityEn = s.se3ParityEn
  lenBits : t.lenBits = s.lenBits
  frame : t.frame = s.frame
  base : tfdBase t = tfdBase s
  schedule : t.schedule = rest

/-- Readiness passes from state to state; only the schedule is the last state's. -/
theorem ReadyAs.trans {s t u : State} {es rest : List Event} (h₁ : ReadyAs s es t)
    (h₂ : ReadyAs t rest u) : ReadyAs s rest u where
  busy := h₂.busy
  se3ParityEn := h₂.se3ParityEn.trans h₁.se3ParityEn
  lenBits := h₂.lenBits.trans h₁.lenBits
  frame := h₂.frame.trans h₁.frame
  base := h₂.base.trans h₁.base
  schedule := h₂.schedule

/-- A command's write of CMD and the engine's turn come before the later commands' (R92, R93). -/
theorem commandEvents_cons (base : Nat) (v : Word) (words : List Word) :
    commandEvents base (v :: words) =
      .hostWrite (base + 0x04) 4 v :: .engine :: commandEvents base words :=
  rfl


/-- A ready state runs the command scheduled first to its completion: it commits `Decode` of the command's
variant and the inputs of `s`, and is ready as before (R92, R93, R103). -/
theorem ReadyAs.run_command {s t : State} {v : Word} {words : List Word} {rest : List Event}
    (h : ReadyAs s (commandEvents (tfdBase s) (v :: words) ++ rest) t) :
    ∃ u, runSteps 2 t = .next u ∧
      ReadyAs s (commandEvents (tfdBase s) words ++ rest) u ∧
      u.results = commit (decodeFrame (commandVariant v) s.lenBits s.frame s.se3ParityEn) := by
  have hs : t.schedule = .hostWrite (tfdBase t + 0x04) 4 v :: .engine ::
      (commandEvents (tfdBase s) words ++ rest) := by
    rw [h.schedule, h.base, commandEvents_cons, List.cons_append, List.cons_append]
  refine ⟨_, (runSteps_command h.busy hs).trans (exec_eq _ _),
    h.trans ⟨rfl, rfl, rfl, rfl, rfl, rfl⟩, ?_⟩
  rw [← h.lenBits, ← h.frame, ← h.se3ParityEn]
  rfl

/-- Commands run one after another leave the state ready as it was: by induction on the commands (R103). -/
theorem ReadyAs.run_commandEvents (earlier : List Word) {words : List Word} {rest : List Event}
    {s t : State} (h : ReadyAs s (commandEvents (tfdBase s) (earlier ++ words) ++ rest) t) :
    ∃ u, runSteps (2 * earlier.length) t = .next u ∧
      ReadyAs s (commandEvents (tfdBase s) words ++ rest) u := by
  induction earlier generalizing t with
  | nil => exact ⟨t, rfl, h⟩
  | cons v earlier ih =>
    obtain ⟨u, hu, hready, -⟩ := h.run_command
    obtain ⟨w, hw, hready'⟩ := ih hready
    have hlen : 2 * (v :: earlier).length = 2 + 2 * earlier.length := by
      rw [List.length_cons]
      omega
    exact ⟨w, by rw [hlen, runSteps_add 2 _ hu, hw], hready'⟩

/-- Settles O20: the earlier commands leave the state ready as it was, and what a ready state commits is
`Decode` of its inputs, whatever its result registers hold. -/
theorem outcomesDoNotDependOnOrder : Obligations.OutcomesDoNotDependOnOrder := by
  unfold Obligations.OutcomesDoNotDependOnOrder
  intro s earlier v r rest hb
  obtain ⟨m, hm, hready⟩ := ReadyAs.run_commandEvents earlier
    (s := s) (words := [v]) (rest := rest)
    (t := { s with schedule := commandEvents (tfdBase s) (earlier ++ [v]) ++ rest })
    ⟨hb, rfl, rfl, rfl, rfl, rfl⟩
  obtain ⟨t, ht, -, htresults⟩ := hready.run_command
  obtain ⟨u, hu, -, huresults⟩ := ReadyAs.run_command (s := s) (words := []) (rest := rest)
    (t := { s with results := r, schedule := commandEvents (tfdBase s) [v] ++ rest })
    ⟨hb, rfl, rfl, rfl, rfl, rfl⟩
  exact ⟨t, u, (runSteps_add _ 2 hm).trans ht, hu, htresults.trans huresults.symm⟩

end Sys2Proof.Machine

/-! SUPPORT. The extractor itself: how many bytes it returns, each of its bytes and each of their bits
(R121), and when the extractor exposed on its own answers and when it refuses (R122). -/

namespace Sys2Proof.Machine

section
variable {f : Frame} {len start count : Nat}

@[simp] theorem length_extract (h : extractPre len start count) :
    (extract f len start count h).length = (count + 7) / 8 := by
  simp [extract]

/-- Within the extracted field, the payload's byte is the extractor's byte at its place. -/
theorem payloadByte_extract (h : extractPre len start count) {j : Nat} (hj : j < (count + 7) / 8) :
    payloadByte (extract f len start count h) j = extractByte f start count j := by
  have hlen : j < (extract f len start count h).length := by rwa [length_extract]
  rw [payloadByte, List.getD_eq_getElem _ _ hlen]
  simp [extract]

/-- Bit `7 - k` of an extracted byte: a frame bit within the count, 0 past it (R121). -/
theorem extractByte_getLsbD (f : Frame) (start count j : Nat) {k : Nat} (hk : k < 8) :
    (extractByte f start count j).getLsbD (7 - k) =
      if 8 * j + k < count then frameBit f (start + (8 * j + k)) else false := by
  rw [extractByte, packByte_getLsbD _ k hk]
  split <;> simp [*]

/-- A call that meets the precondition is answered with the extractor's bytes (R122). -/
theorem extractRefusing_of_pre (f : Frame) (h : extractPre len start count) :
    extractRefusing f len start count = .ok (extract f len start count h) :=
  dif_pos h

/-- A call that breaks the precondition is refused by name (R122). -/
theorem extractRefusing_of_not_pre (f : Frame) (h : ¬ extractPre len start count) :
    extractRefusing f len start count = .error .extractPrecondition :=
  dif_neg h

/-- On a frame that fits the frame buffer, the precondition is R122's alone. -/
theorem extractPre_iff (hlen : len ≤ 128) : extractPre len start count ↔ start + count ≤ len :=
  ⟨And.left, fun h => ⟨h, h.trans hlen⟩⟩

end

/-- Settles O23: the extractor's bytes one by one, and their bits in the order of `packByte`. -/
theorem extractIsLeftJustified : Obligations.ExtractIsLeftJustified := by
  unfold Obligations.ExtractIsLeftJustified
  intro f len start count h
  refine ⟨length_extract h, fun j k hj hk => ?_⟩
  rw [payloadByte_extract h hj, extractByte_getLsbD f start count j hk]

/-- Settles O24: a call past `len` breaks the precondition, a call within a `len` of at most 128 meets it. -/
theorem extractRefusesPastTheFrame : Obligations.ExtractRefusesPastTheFrame := by
  unfold Obligations.ExtractRefusesPastTheFrame
  refine ⟨fun f _ _ _ hpast => extractRefusing_of_not_pre f fun ⟨hle, _⟩ => hpast.not_ge hle,
    fun f _ _ _ hwithin hlen => ?_, by decide⟩
  have hpre := (extractPre_iff hlen).mpr hwithin
  exact ⟨hpre, extractRefusing_of_pre f hpre⟩

end Sys2Proof.Machine

/-! SUPPORT. The integrity validators: the CRC register and its own value (R130), the checksum as addition
in 8 bits (R134), the parity as a count of ones (R137). -/

namespace Sys2Proof.Machine

/-- A zero CRC register stays zero: its top bit adds no polynomial. -/
@[simp] theorem crcShift_zero (poly : Byte) : crcShift poly 0 = 0 := rfl

/-- The register's own value clears it (R130). -/
@[simp] theorem crcByte_self (poly r : Byte) : crcByte poly r r = 0 := by
  rw [crcByte, BitVec.xor_self]
  exact Function.iterate_fixed (crcShift_zero poly) 8

theorem crc8_append_singleton (poly start : Byte) (bytes : List Byte) (b : Byte) :
    crc8 poly start (bytes ++ [b]) = crcByte poly (crc8 poly start bytes) b := by
  rw [crc8, List.foldl_append]
  rfl

/-- Settles O26: the message's CRC is the register's own value when it arrives. -/
theorem crcOfMessageWithItsCrcIsZero : Obligations.CrcOfMessageWithItsCrcIsZero := by
  unfold Obligations.CrcOfMessageWithItsCrcIsZero
  intro poly start bytes
  rw [crc8_append_singleton, crcByte_self]

/-- Settles O25, by running the CRC register over the five messages. -/
theorem crcCornerValues : Obligations.CrcCornerValues := by
  unfold Obligations.CrcCornerValues
  decide +kernel

@[simp] theorem sum8_nil : sum8 [] = 0 := rfl

@[simp] theorem sum8_cons (b : Byte) (bs : List Byte) : sum8 (b :: bs) = b + sum8 bs := by
  rw [sum8, List.map_cons, List.sum_cons, BitVec.ofNat_add, BitVec.ofNat_toNat, BitVec.setWidth_eq, sum8]

/-- Adding the bytes in 8 bits, from any start, adds their checksum (R134). -/
theorem foldl_add_eq_add_sum8 (start : Byte) (bytes : List Byte) :
    bytes.foldl (fun acc b => acc + b) start = start + sum8 bytes := by
  induction bytes generalizing start with
  | nil => simp
  | cons b bs ih => rw [List.foldl_cons, ih, sum8_cons, BitVec.add_assoc]

/-- Settles O27: the sum reduced once (`toNat_ofNat`) and at each step (`foldl_add_eq_add_sum8`). -/
theorem checksumIsWrappingAddition : Obligations.ChecksumIsWrappingAddition := by
  unfold Obligations.ChecksumIsWrappingAddition
  intro bytes
  refine ⟨BitVec.toNat_ofNat _ 8, ?_⟩
  exact ((foldl_add_eq_add_sum8 0 bytes).trans (BitVec.zero_add _)).symm

theorem toNat_xor_eq_add_mod_two (p q : Bool) : (p ^^ q).toNat = (p.toNat + q.toNat) % 2 := by
  cases p <;> cases q <;> rfl

/-- The number of 1 bits in a byte. -/
def onesCount (b : Byte) : Nat := (List.range 8).countP b.getLsbD

theorem onesCount_eq (b : Byte) : onesCount b =
    (b.getLsbD 0).toNat + (b.getLsbD 1).toNat + (b.getLsbD 2).toNat + (b.getLsbD 3).toNat +
      (b.getLsbD 4).toNat + (b.getLsbD 5).toNat + (b.getLsbD 6).toNat + (b.getLsbD 7).toNat := by
  have count_last : ∀ n, (List.range (n + 1)).countP b.getLsbD =
      (List.range n).countP b.getLsbD + (b.getLsbD n).toNat := by
    intro n
    rw [List.range_succ, List.countP_append, List.countP_singleton]
    cases b.getLsbD n <;> rfl
  simp only [onesCount, count_last, List.range_zero, List.countP_nil, Nat.zero_add]

/-- The parity of one byte counts its ones (R137). -/
theorem toNat_xpar_singleton (b : Byte) : (xpar [b]).toNat = onesCount b % 2 := by
  have hacc : xparAcc [b] = b := by simp [xparAcc]
  simp only [xpar, hacc, toNat_xor_eq_add_mod_two, onesCount_eq]
  omega

/-- The parity of a list counts the ones of its bytes together (R137). -/
theorem toNat_xpar (bytes : List Byte) : (xpar bytes).toNat = (bytes.map onesCount).sum % 2 := by
  induction bytes with
  | nil => rfl
  | cons b bs ih =>
    rw [xpar_cons, toNat_xor_eq_add_mod_two, toNat_xpar_singleton, ih, ← Nat.add_mod, List.map_cons,
      List.sum_cons]

/-- A zero byte at the end leaves the accumulator as it is (R139). -/
theorem xparAcc_append_zero (bytes : List Byte) : xparAcc (bytes ++ [0]) = xparAcc bytes := by
  rw [xparAcc, List.foldl_append]
  exact BitVec.xor_zero

/-- Settles O28: `toNat_xpar`, and the accumulator that a zero byte leaves as it is. -/
theorem parityCountsOnes : Obligations.ParityCountsOnes := by
  unfold Obligations.ParityCountsOnes
  intro bytes
  refine ⟨toNat_xpar bytes, ?_⟩
  rw [xpar, xparAcc_append_zero, xpar]

end Sys2Proof.Machine

/-! SUPPORT. The integrity verdict of each decoder over frame bits: another Classic CRC byte or EG53MA4
checksum byte fails (R132, R136), one flipped SE3 bit turns the parity verdict over (R140). -/

namespace Sys2Proof.Machine

/-- The codes of RESULT.CODE are distinct (R29). -/
theorem Code.bits_injective : Function.Injective Code.bits := by
  intro c c'
  cases c <;> cases c' <;> decide

/-- What a command that answers `t` left in the result registers. -/
theorem results_of_exec {i : Instr} {s t : State} (h : exec i s = .next t) :
    t.results = commit (commandOutcome i s.lenBits s.frame s.se3ParityEn) := by
  rw [exec_eq] at h
  injection h with h
  rw [← h]
  rfl

/-- A command that left RESULT.CODE 1 had an OK outcome (R29, R94). -/
theorem code_of_exec_ok {i : Instr} {s t : State} (h : exec i s = .next t)
    (hok : resultCode t.results.result = 1) :
    (commandOutcome i s.lenBits s.frame s.se3ParityEn).code = .ok := by
  rw [results_of_exec h, commit_result, resultCode_resultWord] at hok
  exact Code.bits_injective hok

/-- The RESULT word of a failed integrity step reports neither the codes nor the payload (R94, R97). -/
theorem resultWord_failIntegrity (v : VariantCode) (calcCode recvCode : Byte) (pl : List Byte) (pe : Bool) :
    resultWord (failIntegrity v calcCode recvCode pl pe) = resultWord (failIntegrity v 0 0 [] pe) := rfl

/-- The CRC of a Classic frame's seven data bytes (R75, R153). -/
def classicCalc (f : Frame) : Byte := crc8 0x07 0xF0 (frameBytes f 4 7)

/-- A Classic frame decodes exactly when its CRC byte is the CRC of its data (R132, R153). -/
theorem decodeClassic_68_code_ok_iff (f : Frame) :
    (decodeClassic 68 f).code = .ok ↔ classicCalc f = frameField f 60 8 := by
  rw [decodeClassic_68]
  rcases unpackClassic_cases (frameBytes f 4 8) with ⟨hcrc, h⟩ | ⟨hcrc, h⟩ <;> rw [h]
  · exact iff_of_true rfl hcrc
  · exact iff_of_false Code.noConfusion hcrc

/-- A Classic frame with another CRC byte than its data's is an integrity failure (R153, R213). -/
theorem decodeClassic_68_of_ne {f : Frame} (h : classicCalc f ≠ frameField f 60 8) :
    decodeClassic 68 f = failIntegrity 0 (classicCalc f) (frameField f 60 8)
      (frameBytes f 4 8 ++ [0, 0]) false := by
  rw [decodeClassic_68]
  exact ((unpackClassic_cases (frameBytes f 4 8)).resolve_left fun ⟨hcrc, _⟩ => h hcrc).2

/-- Settles O29: the CRC of the data is the same in both frames, so the second frame's byte is not it. -/
theorem anotherCrcByteIsRejected : Obligations.AnotherCrcByteIsRejected := by
  unfold Obligations.AnotherCrcByteIsRejected
  intro s t g hlen hexec hok hsame hother
  have hcrc : classicCalc s.frame = frameField s.frame 60 8 :=
    (decodeClassic_68_code_ok_iff s.frame).mp (hlen ▸ code_of_exec_ok hexec hok)
  have hcalc : classicCalc g = classicCalc s.frame :=
    congrArg (crc8 0x07 0xF0) (frameBytes_of_sameBits hsame (by decide)).symm
  have hne : classicCalc g ≠ frameField g 60 8 := by
    rw [hcalc, hcrc]
    exact hother.symm
  refine ⟨_, exec_eq _ _, ?_⟩
  show (commit (decodeClassic s.lenBits g)).result = _ ∧ (commit (decodeClassic s.lenBits g)).noReading
  rw [hlen, decodeClassic_68_of_ne hne]
  refine ⟨?_, (noReading_failIntegrity _ _ _ _ _).commit_noReading⟩
  rw [commit_result, resultWord_failIntegrity]
  decide

/-- The checksum of an EG53MA4 frame's nine data bytes (R76, R173). -/
def eg53ma4Calc (f : Frame) : Byte := sum8 (frameBytes f 40 9)

/-- An EG53MA4 frame decodes exactly when its checksum byte is the sum of its data (R135, R173). -/
theorem decodeEg53ma4_120_code_ok_iff (f : Frame) :
    (decodeEg53ma4 120 f).code = .ok ↔ eg53ma4Calc f = frameField f 112 8 := by
  rw [decodeEg53ma4_120]
  rcases unpackEg53ma4_cases (frameBytes f 40 10) with ⟨hsum, h⟩ | ⟨hsum, h⟩ <;> rw [h]
  · exact iff_of_true rfl hsum
  · exact iff_of_false Code.noConfusion hsum

/-- An EG53MA4 frame with another checksum byte than its data's is an integrity failure (R173, R213). -/
theorem decodeEg53ma4_120_of_ne {f : Frame} (h : eg53ma4Calc f ≠ frameField f 112 8) :
    decodeEg53ma4 120 f = failIntegrity 1 (eg53ma4Calc f) (frameField f 112 8)
      (frameBytes f 40 10) false := by
  rw [decodeEg53ma4_120]
  exact ((unpackEg53ma4_cases (frameBytes f 40 10)).resolve_left fun ⟨hsum, _⟩ => h hsum).2

/-- Settles O30: the sum of the data is the same in both frames, and a nonzero amount added to it is
another byte. -/
theorem mutatedChecksumIsRejected : Obligations.MutatedChecksumIsRejected := by
  unfold Obligations.MutatedChecksumIsRejected
  intro s t g d hlen hexec hok hsame hd hother
  have hsum : eg53ma4Calc s.frame = frameField s.frame 112 8 :=
    (decodeEg53ma4_120_code_ok_iff s.frame).mp (hlen ▸ code_of_exec_ok hexec hok)
  have hcalc : eg53ma4Calc g = eg53ma4Calc s.frame :=
    congrArg sum8 (frameBytes_of_sameBits hsame (by decide)).symm
  have hne : eg53ma4Calc g ≠ frameField g 112 8 := by
    rw [hcalc, hsum, hother]
    exact fun h => hd (left_eq_add.mp h)
  refine ⟨_, exec_eq _ _, ?_⟩
  show (commit (decodeEg53ma4 s.lenBits g)).result = _ ∧
    checkRecv (commit (decodeEg53ma4 s.lenBits g)).check = _ ∧
    (commit (decodeEg53ma4 s.lenBits g)).noReading
  rw [hlen, decodeEg53ma4_120_of_ne hne, hother]
  refine ⟨?_, ?_, (noReading_failIntegrity _ _ _ _ _).commit_noReading⟩
  · rw [commit_result, resultWord_failIntegrity]
    decide
  · rw [commit_check, checkRecv_zext32_append]
    rfl

/-- A flip turns the parity of a range over exactly when it falls in the range (R140). -/
theorem frameParity_of_flipsBit {f g : Frame} {i : Nat} (h : flipsBit f g i) (lo n : Nat) :
    frameParity g lo n = (frameParity f lo n ^^ decide (lo ≤ i ∧ i < lo + n)) := by
  induction n with
  | zero => simp [frameParity, show ¬(lo ≤ i ∧ i < lo) by omega]
  | succ n ih =>
    have hrange : decide (lo ≤ i ∧ i < lo + (n + 1)) =
        (decide (lo ≤ i ∧ i < lo + n) ^^ decide (lo + n = i)) := by
      by_cases hi : lo + n = i
      · simp [← hi]
      · simp [hi, show i < lo + (n + 1) ↔ i < lo + n by omega]
    rw [frameParity, frameParity, ih, h (lo + n), hrange]
    simp only [Bool.xor_assoc, Bool.xor_left_comm]

/-- A flip within the range turns its parity over. -/
theorem frameParity_flip {f g : Frame} {i lo n : Nat} (h : flipsBit f g i) (hlo : lo ≤ i)
    (hhi : i < lo + n) : frameParity g lo n = !frameParity f lo n := by
  rw [frameParity_of_flipsBit h, decide_eq_true ⟨hlo, hhi⟩, Bool.xor_true]

/-- CHK_PASS of an SE3 payload compares the two codes, enforced or not (R35, R196). -/
theorem unpackSe3_chkPass (b : List Byte) (enf : Bool) :
    (unpackSe3 b enf).chkPass = decide (se3Computed b = se3Received b) := by
  rcases unpackSe3_cases b enf with ⟨-, h⟩ | ⟨hpar, -, h⟩ <;> rw [h]
  · rfl
  · exact (decide_eq_false hpar).symm

/-- The SE3 verdict: the data bits and the parity bit, frame bits 16 to 51, have even parity (R138). -/
theorem decodeSe3_chkPass {len : FrameLen} (f : Frame) (enf : Bool) (h : len = 52 ∨ len = 53) :
    (decodeSe3 len f enf).chkPass = !frameParity f 16 36 := by
  have verdict : ∀ p q : Bool, decide (p = q) = !(p ^^ q) := by decide
  rw [decodeSe3_accepted f enf h, unpackSe3_chkPass, se3Computed_frame, se3Received_frame]
  exact (decide_eq_decide.mpr bitCode_inj).trans (verdict (frameParity f 16 35) (frameBit f 51))

/-- DECODE_SE3 of an accepted length answers, with CHK_PASS the verdict over frame bits 16 to 51. -/
theorem exec_decodeSe3_chkPass {s : State} (h : s.lenBits = 52 ∨ s.lenBits = 53) :
    ∃ t, exec .decodeSe3 s = .next t ∧ resultChkPass t.results.result = !frameParity s.frame 16 36 :=
  ⟨_, exec_eq _ s, (resultChkPass_resultWord _).trans (decodeSe3_chkPass s.frame s.se3ParityEn h)⟩

/-- Settles O31: the verdict is the parity of frame bits 16 to 51, which each flip turns over. -/
theorem oneFlippedBitTurnsTheParityVerdict : Obligations.OneFlippedBitTurnsTheParityVerdict := by
  unfold Obligations.OneFlippedBitTurnsTheParityVerdict
  intro s g i hlen hlo hhi hflip
  have hone : frameParity g 16 36 = !frameParity s.frame 16 36 := frameParity_flip hflip hlo (by omega)
  obtain ⟨t, ht, htpass⟩ := exec_decodeSe3_chkPass hlen
  obtain ⟨u, hu, hupass⟩ := exec_decodeSe3_chkPass (s := { s with frame := g }) hlen
  refine ⟨t, u, ht, hu, by rw [hupass, htpass, hone], fun h j hjlo hjhi hagain => ?_⟩
  have htwo : frameParity h 16 36 = !frameParity g 16 36 := frameParity_flip hagain hjlo (by omega)
  obtain ⟨w, hw, hwpass⟩ := exec_decodeSe3_chkPass (s := { s with frame := h }) hlen
  exact ⟨w, hw, by rw [hwpass, htpass, htwo, hone, Bool.not_not]⟩

end Sys2Proof.Machine

/-! SUPPORT. What DECODE_CLASSIC commits, field by field over frame bits (R75, R150 to R158): the words four
payload bytes make, the scaled pressure and the offset temperature in a register's own arithmetic, and the
result registers of each outcome. -/

namespace Sys2Proof.Machine

/-- Four adjacent frame bytes make the frame word at the first one's place (R37). -/
theorem frameField_bytes_append (f : Frame) (lo : Nat) :
    frameField f lo 8 ++ frameField f (lo + 8) 8 ++ frameField f (lo + 16) 8 ++ frameField f (lo + 24) 8 =
      frameField f lo 32 := by
  rw [frameField_append f lo 8 8, frameField_append f lo 16 8, frameField_append f lo 24 8]

/-- PRESSURE, scaled in 16 bits and widened, is the product in the register (R94, R156, R176). -/
theorem zext32_pressure_mbar (p : Byte) : zext32 (BitVec.ofNat 16 (25 * p.toNat)) = 25 * zext32 p := by
  have hp := p.isLt
  apply BitVec.eq_of_toNat_eq
  rw [zext32_toNat _ (by decide), pressure_mbar_toNat, BitVec.toNat_mul, zext32_toNat p (by decide)]
  exact (Nat.mod_eq_of_lt (show 25 * p.toNat < 2 ^ 32 by omega)).symm

/-- TEMPERATURE, an integer difference in two's complement, is the difference in the register (R94, R157). -/
theorem tc32_temperature_celsius (p : Byte) : tc32 ((p.toNat : Int) - 50) = zext32 p - 50 := by
  rw [tc32, Int.sub_eq_add_neg, BitVec.ofInt_add, BitVec.sub_eq_add_neg]
  congr 1
  rw [BitVec.ofInt_natCast, BitVec.ofNat_toNat]

/-- What a commit leaves of an outcome that reports the Classic payload: PAYLOAD0 and PAYLOAD1 are frame
bits 4 to 67 (R37, R75, R152). -/
theorem commit_of_classicPayload {o : DecodeOutcome} {f : Frame} (h : o.pl = frameBytes f 4 8 ++ [0, 0]) :
    commit o =
      { result := resultWord o, sensorId := o.sensorId, flags := o.flags, pressureRaw := zext32 o.praw
        pressure := zext32 o.pressure, temperature := tc32 o.temperature
        check := zext32 (o.recvCode ++ o.calcCode)
        payload0 := frameField f 4 32, payload1 := frameField f 36 32, payload2 := 0 } := by
  have hzero : (0 : Byte) ++ (0 : Byte) ++ (0 : BitVec 16) = (0 : Word) := by decide
  rw [commit, h, ← frameField_bytes_append f 4, ← frameField_bytes_append f 36, ← hzero]
  rfl

/-- The Classic flags, two adjacent nibbles, are frame bits 8 to 15 (R75, R154). -/
theorem classicFlags_eq (f : Frame) :
    (frameField f 4 8).extractLsb' 0 4 ++ (frameField f 12 8).extractLsb' 4 4 = frameField f 8 8 := by
  rw [frameField_extract f 4 8 0 4 (by decide), frameField_extract f 12 8 4 4 (by decide)]
  exact frameField_append f 8 4 4

/-- The Classic sensor id, a nibble and the three bytes after it, is frame bits 16 to 43 (R75, R155). -/
theorem classicSensorId_eq (f : Frame) :
    (frameField f 12 8).extractLsb' 0 4 ++ frameField f 20 8 ++ frameField f 28 8 ++ frameField f 36 8 =
      frameField f 16 28 := by
  rw [frameField_extract f 12 8 0 4 (by decide), frameField_append f 16 4 8,
    frameField_append f 16 12 8, frameField_append f 16 20 8]

/-- A Classic frame whose CRC byte is its data's decodes to its reading (R153, R154). -/
theorem decodeClassic_68_of_eq {f : Frame} (h : classicCalc f = frameField f 60 8) :
    decodeClassic 68 f = classicReading (frameBytes f 4 8) := by
  rw [decodeClassic_68]
  exact ((unpackClassic_cases (frameBytes f 4 8)).resolve_right fun ⟨hcrc, _⟩ => hcrc h).2

/-- The registers of a Classic length mismatch (R151, R212). -/
theorem commit_decodeClassic_length {len : FrameLen} (f : Frame) (h : len ≠ 68) :
    commit (decodeClassic len f) = resultOnly 0x00333302 := by
  rw [decodeClassic_length f h]
  decide

/-- The registers of a Classic integrity failure, by frame bits (R153, R213). -/
theorem commit_decodeClassic_of_ne {f : Frame} (h : classicCalc f ≠ frameField f 60 8) :
    commit (decodeClassic 68 f) =
      { resultOnly 0x01333303 with
        check := zext32 (frameField f 60 8 ++ classicCalc f)
        payload0 := frameField f 4 32, payload1 := frameField f 36 32, payload2 := 0 } := by
  have hword : resultWord (failIntegrity 0 0 0 [] false) = 0x01333303 := by decide
  rw [decodeClassic_68_of_ne h, commit_of_classicPayload rfl, resultWord_failIntegrity, hword]
  rfl

/-- The registers of a Classic reading, by frame bits (R153 to R158). -/
theorem commit_decodeClassic_of_eq {f : Frame} (h : classicCalc f = frameField f 60 8) :
    commit (decodeClassic 68 f) =
      { result := 0x03000001
        flags := zext32 (frameField f 8 8)
        sensorId := zext32 (frameField f 16 28)
        pressureRaw := zext32 (frameField f 44 8)
        pressure := 25 * zext32 (frameField f 44 8)
        temperature := zext32 (frameField f 52 8) - 50
        check := zext32 (frameField f 60 8 ++ classicCalc f)
        payload0 := frameField f 4 32, payload1 := frameField f 36 32, payload2 := 0 } := by
  have hword : resultWord (classicReading []) = 0x03000001 := by decide
  rw [decodeClassic_68_of_eq h, commit_of_classicPayload rfl, ← hword, ← classicFlags_eq,
    ← classicSensorId_eq, ← zext32_pressure_mbar, ← tc32_temperature_celsius]
  rfl

/-- Settles O11: the committed registers of each outcome, the length first and then the CRC. -/
theorem decodeClassicOutcome : Obligations.DecodeClassicOutcome := by
  unfold Obligations.DecodeClassicOutcome
  intro s f calcCode recvCode
  rw [exec_eq, commandOutcome, complete]
  by_cases hlen : s.lenBits = 68
  · rw [if_neg (not_not_intro hlen), hlen]
    by_cases hcrc : calcCode = recvCode
    · rw [if_neg (not_not_intro hcrc), commit_decodeClassic_of_eq hcrc]
      rfl
    · rw [if_pos hcrc, commit_decodeClassic_of_ne hcrc]
      rfl
  · rw [if_pos hlen, commit_decodeClassic_length s.frame hlen]

end Sys2Proof.Machine

/-! SUPPORT. What DECODE_EG53MA4 commits, field by field over frame bits (R76, R170 to R178): the checksum as
the sum reduced modulo 256, the unsigned temperature, and the result registers of each outcome. -/

namespace Sys2Proof.Machine

/-- The EG53MA4 checksum is the sum of frame bytes 40 to 111 reduced modulo 256 (R134, R173). -/
theorem eg53ma4Calc_eq_sum_mod (f : Frame) :
    eg53ma4Calc f = BitVec.ofNat 8 (((frameBytes f 40 9).map BitVec.toNat).sum % 256) :=
  BitVec.eq_of_toNat_eq <| by rw [eg53ma4Calc, sum8, BitVec.toNat_ofNat, BitVec.toNat_ofNat, Nat.mod_mod]

/-- An unsigned temperature byte is itself in the register (R94, R177). -/
theorem tc32_temperature_unsigned (p : Byte) : tc32 (p.toNat : Int) = zext32 p := by
  rw [tc32, BitVec.ofInt_natCast, BitVec.ofNat_toNat]

/-- What a commit leaves of an outcome that reports the EG53MA4 payload: PAYLOAD0 to PAYLOAD2 are frame bits
40 to 119, then 16 zeros (R37, R76, R172). -/
theorem commit_of_eg53ma4Payload {o : DecodeOutcome} {f : Frame} (h : o.pl = frameBytes f 40 10) :
    commit o =
      { result := resultWord o, sensorId := o.sensorId, flags := o.flags, pressureRaw := zext32 o.praw
        pressure := zext32 o.pressure, temperature := tc32 o.temperature
        check := zext32 (o.recvCode ++ o.calcCode)
        payload0 := frameField f 40 32, payload1 := frameField f 72 32
        payload2 := frameField f 104 16 ++ (0 : BitVec 16) } := by
  rw [commit, h, ← frameField_bytes_append f 40, ← frameField_bytes_append f 72,
    ← frameField_append f 104 8 8]
  rfl

/-- The EG53MA4 sensor id, three adjacent bytes, is frame bits 72 to 95 (R76, R175). -/
theorem eg53ma4SensorId_eq (f : Frame) :
    frameField f 72 8 ++ frameField f 80 8 ++ frameField f 88 8 = frameField f 72 24 := by
  rw [frameField_append f 72 8 8, frameField_append f 72 16 8]

/-- An EG53MA4 frame whose checksum byte is the sum of its data decodes to its reading (R173, R174). -/
theorem decodeEg53ma4_120_of_eq {f : Frame} (h : eg53ma4Calc f = frameField f 112 8) :
    decodeEg53ma4 120 f = eg53ma4Reading (frameBytes f 40 10) := by
  rw [decodeEg53ma4_120]
  exact ((unpackEg53ma4_cases (frameBytes f 40 10)).resolve_right fun ⟨hsum, _⟩ => hsum h).2

/-- The registers of an EG53MA4 length mismatch (R171, R212). -/
theorem commit_decodeEg53ma4_length {len : FrameLen} (f : Frame) (h : len ≠ 120) :
    commit (decodeEg53ma4 len f) = resultOnly 0x00333312 := by
  rw [decodeEg53ma4_length f h]
  decide

/-- The registers of an EG53MA4 integrity failure, by frame bits (R173, R213). -/
theorem commit_decodeEg53ma4_of_ne {f : Frame} (h : eg53ma4Calc f ≠ frameField f 112 8) :
    commit (decodeEg53ma4 120 f) =
      { resultOnly 0x01333313 with
        check := zext32 (frameField f 112 8 ++ eg53ma4Calc f)
        payload0 := frameField f 40 32, payload1 := frameField f 72 32
        payload2 := frameField f 104 16 ++ (0 : BitVec 16) } := by
  have hword : resultWord (failIntegrity 1 0 0 [] false) = 0x01333313 := by decide
  rw [decodeEg53ma4_120_of_ne h, commit_of_eg53ma4Payload rfl, resultWord_failIntegrity, hword]
  rfl

/-- The registers of an EG53MA4 reading, by frame bits (R173 to R178). -/
theorem commit_decodeEg53ma4_of_eq {f : Frame} (h : eg53ma4Calc f = frameField f 112 8) :
    commit (decodeEg53ma4 120 f) =
      { result := 0x03101111
        flags := frameField f 40 32
        sensorId := zext32 (frameField f 72 24)
        pressureRaw := zext32 (frameField f 96 8)
        pressure := 25 * zext32 (frameField f 96 8)
        temperature := zext32 (frameField f 104 8)
        check := zext32 (frameField f 112 8 ++ eg53ma4Calc f)
        payload0 := frameField f 40 32, payload1 := frameField f 72 32
        payload2 := frameField f 104 16 ++ (0 : BitVec 16) } := by
  have hword : resultWord (eg53ma4Reading []) = 0x03101111 := by decide
  rw [decodeEg53ma4_120_of_eq h, commit_of_eg53ma4Payload rfl, ← hword, ← frameField_bytes_append f 40,
    ← eg53ma4SensorId_eq, ← zext32_pressure_mbar, ← tc32_temperature_unsigned (frameField f 104 8)]
  rfl

/-- Settles O12: the committed registers of each outcome, the length first and then the checksum. -/
theorem decodeEg53ma4Outcome : Obligations.DecodeEg53ma4Outcome := by
  unfold Obligations.DecodeEg53ma4Outcome
  intro s f calcCode recvCode
  have hcalc : eg53ma4Calc f = calcCode := eg53ma4Calc_eq_sum_mod f
  rw [exec_eq, commandOutcome, complete, ← hcalc]
  by_cases hlen : s.lenBits = 120
  · rw [if_neg (not_not_intro hlen), hlen]
    by_cases hsum : eg53ma4Calc f = recvCode
    · rw [if_neg (not_not_intro hsum), commit_decodeEg53ma4_of_eq hsum]
    · rw [if_pos hsum, commit_decodeEg53ma4_of_ne hsum]
  · rw [if_pos hlen, commit_decodeEg53ma4_length s.frame hlen]

end Sys2Proof.Machine

/-! SUPPORT. What DECODE_SE3 commits, field by field over frame bits (R77, R190 to R202): the payload's 36 bits,
the groups that cross its bytes, the scaled pressure, and the result registers of each parity verdict. -/

namespace Sys2Proof.Machine

/-- The SE3 payload of a frame: frame bits 16 to 51, then four zeros (R192). -/
def se3Payload (f : Frame) : List Byte := frameBytes f 16 4 ++ [frameField f 48 4 ++ 0#4]

/-- PRESSURE, scaled in 16 bits and widened, is the scaled value in the register (R94, R200). -/
theorem zext32_pressure_tenthPsi (p : Byte) :
    zext32 (BitVec.ofNat 16 (2 * p.toNat + 1)) = 2 * zext32 p + 1 := by
  have hp := p.isLt
  apply BitVec.eq_of_toNat_eq
  rw [zext32_toNat _ (by decide), pressure_tenthPsi_toNat, BitVec.toNat_add, BitVec.toNat_mul,
    zext32_toNat p (by decide)]
  show 2 * p.toNat + 1 = (2 * p.toNat % 2 ^ 32 + 1) % 2 ^ 32
  omega

/-- The SE3 sensor id, six groups over four payload bytes, is frame bits 19 to 42 (R77, R198). -/
theorem se3SensorId_eq (f : Frame) :
    ((frameField f 16 8).extractLsb' 0 5 ++ (frameField f 24 8).extractLsb' 5 3) ++
        ((frameField f 24 8).extractLsb' 0 5 ++ (frameField f 32 8).extractLsb' 5 3) ++
        ((frameField f 32 8).extractLsb' 0 5 ++ (frameField f 40 8).extractLsb' 5 3) =
      frameField f 19 24 := by
  rw [frameField_extract f 16 8 0 5 (by decide), frameField_extract f 24 8 5 3 (by decide),
    frameField_extract f 24 8 0 5 (by decide), frameField_extract f 32 8 5 3 (by decide),
    frameField_extract f 32 8 0 5 (by decide), frameField_extract f 40 8 5 3 (by decide),
    frameField_append f 19 5 3, frameField_append f 27 5 3, frameField_append f 35 5 3,
    frameField_append f 19 8 8, frameField_append f 19 16 8]

/-- The data bits of the masked last SE3 byte are frame bits 48 to 50 (R194). -/
theorem extractLsb'_se3Mask (f : Frame) :
    (se3Mask (frameField f 48 4 ++ 0#4)).extractLsb' 5 3 = frameField f 48 3 := by
  have key : ∀ n : BitVec 4, (se3Mask (n ++ 0#4)).extractLsb' 5 3 = n.extractLsb' 1 3 := by decide
  rw [key, frameField_extract f 48 4 1 3 (by decide)]

/-- PRESSURE_RAW of an SE3 frame is frame bits 43 to 50 (R77, R199). -/
theorem se3PressureRaw_eq (f : Frame) : se3PressureRaw (se3Payload f) = frameField f 43 8 := by
  show (frameField f 40 8).extractLsb' 0 5 ++ (se3Mask (frameField f 48 4 ++ 0#4)).extractLsb' 5 3 = _
  rw [extractLsb'_se3Mask, frameField_extract f 40 8 0 5 (by decide)]
  exact frameField_append f 43 5 3

/-- The SE3 flags are frame bits 16 to 18 (R77, R197). -/
theorem se3Flags_eq (f : Frame) : (frameField f 16 8).extractLsb' 5 3 = frameField f 16 3 :=
  frameField_extract f 16 8 5 3 (by decide)

/-- What a commit leaves of an outcome that reports the SE3 payload: PAYLOAD0 and the top of PAYLOAD1 are
frame bits 16 to 51 (R37, R77, R192). -/
theorem commit_of_se3Payload {o : DecodeOutcome} {f : Frame} (h : o.pl = se3Payload f ++ [0, 0, 0, 0, 0]) :
    commit o =
      { result := resultWord o, sensorId := o.sensorId, flags := o.flags, pressureRaw := zext32 o.praw
        pressure := zext32 o.pressure, temperature := tc32 o.temperature
        check := zext32 (o.recvCode ++ o.calcCode)
        payload0 := frameField f 16 32, payload1 := frameField f 48 4 ++ (0 : BitVec 28)
        payload2 := 0 } := by
  have hzeros : ∀ n : BitVec 4,
      n ++ 0#4 ++ (0 : Byte) ++ (0 : Byte) ++ (0 : Byte) = n ++ (0 : BitVec 28) := by decide
  have hzero : (0 : Byte) ++ (0 : Byte) ++ (0 : BitVec 16) = (0 : Word) := by decide
  rw [commit, h, ← frameField_bytes_append f 16, ← hzeros, ← hzero]
  rfl

/-- The RESULT word of an SE3 reading by its parity verdict and its enforcement, where the verdict passes
or is not enforced (R35, R196). -/
theorem resultWord_se3Reading {f : Frame} {enf : Bool}
    (hpar : frameParity f 16 35 = frameBit f 51 ∨ enf = false) :
    resultWord (se3Reading (se3Payload f) enf) =
      if frameParity f 16 35 ≠ frameBit f 51 then 0x01312221
      else if enf = true then 0x07312221 else 0x03312221 := by
  have hword : ∀ p q e : Bool, p = q ∨ e = false →
      resultWord { se3Reading [] e with chkPass := decide (bitCode p = bitCode q) } =
        if p ≠ q then 0x01312221 else if e = true then 0x07312221 else 0x03312221 := by decide
  rw [← hword _ _ _ hpar, ← se3Computed_frame, ← se3Received_frame]
  rfl

section
variable {len : FrameLen} {f : Frame} (hlen : len = 52 ∨ len = 53)
include hlen

/-- Both accepted lengths decode the same payload (R190, R192, R202). -/
theorem decodeSe3_eq_unpackSe3 (enf : Bool) : decodeSe3 len f enf = unpackSe3 (se3Payload f) enf :=
  decodeSe3_accepted f enf hlen

/-- An SE3 frame whose parity differs, with the parity enforced, is an integrity failure (R196, R213). -/
theorem decodeSe3_of_enforced (hpar : frameParity f 16 35 ≠ frameBit f 51) :
    decodeSe3 len f true = failIntegrity 2 (bitCode (frameParity f 16 35)) (bitCode (frameBit f 51))
      (se3Payload f ++ [0, 0, 0, 0, 0]) true := by
  have hcode : se3Computed (se3Payload f) ≠ se3Received (se3Payload f) := by
    rw [se3Payload, se3Computed_frame, se3Received_frame]
    exact fun h => hpar (bitCode_inj.mp h)
  have hcases := (unpackSe3_cases (se3Payload f) true).resolve_left
    fun ⟨h, _⟩ => h.elim hcode Bool.noConfusion
  obtain ⟨-, -, hfail⟩ := hcases
  rw [decodeSe3_eq_unpackSe3 hlen, hfail, se3Payload, se3Computed_frame, se3Received_frame]

/-- An SE3 frame whose parity matches or is not enforced decodes to its reading (R196). -/
theorem decodeSe3_of_accepted {enf : Bool} (hpar : frameParity f 16 35 = frameBit f 51 ∨ enf = false) :
    decodeSe3 len f enf = se3Reading (se3Payload f) enf := by
  rw [decodeSe3_eq_unpackSe3 hlen]
  rcases unpackSe3_cases (se3Payload f) enf with ⟨-, h⟩ | ⟨hcode, henf, -⟩
  · exact h
  · rw [se3Payload, se3Computed_frame, se3Received_frame, Ne, bitCode_inj] at hcode
    exact absurd (hpar.resolve_left hcode) (by simp [henf])

/-- The registers of an enforced SE3 integrity failure, by frame bits (R196, R213). -/
theorem commit_decodeSe3_of_enforced (hpar : frameParity f 16 35 ≠ frameBit f 51) :
    commit (decodeSe3 len f true) =
      { resultOnly 0x05333323 with
        check := zext32 (bitCode (frameBit f 51) ++ bitCode (frameParity f 16 35))
        payload0 := frameField f 16 32, payload1 := frameField f 48 4 ++ (0 : BitVec 28)
        payload2 := 0 } := by
  have hword : resultWord (failIntegrity 2 0 0 [] true) = 0x05333323 := by decide
  rw [decodeSe3_of_enforced hlen hpar, commit_of_se3Payload rfl, resultWord_failIntegrity, hword]
  rfl

/-- The registers of an SE3 reading, by frame bits (R196 to R201). -/
theorem commit_decodeSe3_of_accepted {enf : Bool}
    (hpar : frameParity f 16 35 = frameBit f 51 ∨ enf = false) :
    commit (decodeSe3 len f enf) =
      { result := if frameParity f 16 35 ≠ frameBit f 51 then 0x01312221
          else if enf = true then 0x07312221 else 0x03312221
        flags := zext32 (frameField f 16 3)
        sensorId := zext32 (frameField f 19 24)
        pressureRaw := zext32 (frameField f 43 8)
        pressure := 2 * zext32 (frameField f 43 8) + 1
        temperature := 0
        check := zext32 (bitCode (frameBit f 51) ++ bitCode (frameParity f 16 35))
        payload0 := frameField f 16 32, payload1 := frameField f 48 4 ++ (0 : BitVec 28)
        payload2 := 0 } := by
  have htemp : tc32 0 = 0 := by decide
  rw [decodeSe3_of_accepted hlen hpar, commit_of_se3Payload rfl, resultWord_se3Reading hpar,
    ← se3Flags_eq, ← se3SensorId_eq, ← zext32_pressure_tenthPsi, ← se3PressureRaw_eq,
    ← se3Computed_frame, ← se3Received_frame, ← htemp]
  rfl

end

/-- The registers of an SE3 length mismatch (R191, R212). -/
theorem commit_decodeSe3_length {len : FrameLen} (f : Frame) (enf : Bool) (h₁ : len ≠ 52) (h₂ : len ≠ 53) :
    commit (decodeSe3 len f enf) = resultOnly 0x00333322 := by
  rw [decodeSe3_length f enf h₁ h₂]
  decide

/-- Settles O13: the committed registers of each outcome, the length first and then the parity with its
enforcement. -/
theorem decodeSe3Outcome : Obligations.DecodeSe3Outcome := by
  unfold Obligations.DecodeSe3Outcome
  intro s f calcBit recvBit check
  rw [exec_eq, commandOutcome, complete]
  by_cases hmismatch : s.lenBits ≠ 52 ∧ s.lenBits ≠ 53
  · obtain ⟨h52, h53⟩ := hmismatch
    rw [if_pos ⟨h52, h53⟩, commit_decodeSe3_length s.frame s.se3ParityEn h52 h53]
  · have hlen : s.lenBits = 52 ∨ s.lenBits = 53 := by rwa [not_and_or, not_ne_iff, not_ne_iff] at hmismatch
    rw [if_neg hmismatch]
    by_cases hreject : calcBit ≠ recvBit ∧ s.se3ParityEn = true
    · obtain ⟨hpar, henf⟩ := hreject
      rw [if_pos ⟨hpar, henf⟩, henf, commit_decodeSe3_of_enforced hlen hpar]
    · have hpar : calcBit = recvBit ∨ s.se3ParityEn = false := by
        rwa [not_and_or, not_ne_iff, Bool.not_eq_true] at hreject
      rw [if_neg hreject, commit_decodeSe3_of_accepted hlen hpar]

/-- Settles O18: the committed registers of each parity verdict, read off their RESULT words. -/
theorem parityIsEnforcedByCtrl : Obligations.ParityIsEnforcedByCtrl := by
  unfold Obligations.ParityIsEnforcedByCtrl
  intro s hlen
  have hrejected : resultCode 0x05333323 = 3 := by decide
  have hunenforced : resultCode 0x01312221 = 1 ∧ resultChkPass 0x01312221 = false := by decide
  have hpassed : ∀ enf : Bool, resultCode (if enf = true then 0x07312221 else 0x03312221) = 1 ∧
      resultChkPass (if enf = true then 0x07312221 else 0x03312221) = true := by decide
  refine ⟨_, exec_eq _ s, fun hpar henf => ?_, fun hpar henf => ?_, fun hpar => ?_⟩ <;>
    rw [complete_results, commandOutcome]
  · rw [henf, commit_decodeSe3_of_enforced hlen hpar]
    exact hrejected
  · rw [henf, commit_decodeSe3_of_accepted hlen (.inr rfl), if_pos hpar]
    exact hunenforced
  · rw [commit_decodeSe3_of_accepted hlen (.inl hpar), if_neg (not_not_intro hpar)]
    exact hpassed s.se3ParityEn

/-- Settles O22: both lengths decode the payload, which agrees where frame bits 16 to 51 do. -/
theorem se3LengthsGiveEqualOutcomes : Obligations.Se3LengthsGiveEqualOutcomes := by
  unfold Obligations.Se3LengthsGiveEqualOutcomes
  intro f g enf hsame
  have hrange : sameBits f g 16 51 := fun i _ hhi => hsame i (Nat.zero_le i) hhi
  have houtcome : decodeSe3 52 f enf = decodeSe3 53 g enf := by
    rw [decodeSe3_of_sameBits hrange, decodeSe3_eq_unpackSe3 (.inl rfl), decodeSe3_eq_unpackSe3 (.inr rfl)]
  exact ⟨houtcome, congrArg commit houtcome⟩

end Sys2Proof.Machine

/-! SUPPORT. The failures of a decode and their order (R99, R212, R216): what a wrong length commits, and for
the three variants that first the length and then the integrity codes decide the outcome. -/

namespace Sys2Proof.Machine

/-- Settles O15: each variant's length mismatch is what its command commits, over an unchanged rest. -/
theorem wrongLengthIsFrameLengthMismatch : Obligations.WrongLengthIsFrameLengthMismatch := by
  unfold Obligations.WrongLengthIsFrameLengthMismatch
  intro s
  refine ⟨fun hlen => ?_, fun hlen => ?_, fun h52 h53 => ?_⟩ <;> rw [exec_eq, commandOutcome, complete]
  · rw [commit_decodeClassic_length s.frame hlen]
  · rw [commit_decodeEg53ma4_length s.frame hlen]
  · rw [commit_decodeSe3_length s.frame s.se3ParityEn h52 h53]

theorem acceptedLength_classic_iff (len : FrameLen) : acceptedLength 0 len = true ↔ len = 68 := by
  simp [acceptedLength]

theorem acceptedLength_eg53ma4_iff (len : FrameLen) : acceptedLength 1 len = true ↔ len = 120 := by
  simp [acceptedLength]

theorem acceptedLength_se3_iff (len : FrameLen) :
    acceptedLength 2 len = true ↔ len = 52 ∨ len = 53 := by
  simp [acceptedLength]

/-- Only the integrity codes decide the outcome: it is a failure when they differ and are enforced, and OK
otherwise (R216). -/
def IntegrityDecides (enforced : Prop) (o : DecodeOutcome) : Prop :=
  (o.calcCode ≠ o.recvCode ∧ enforced ∧ o.code = .integrityFailure) ∨
  ((o.calcCode = o.recvCode ∨ ¬ enforced) ∧ o.code = .ok)

section
variable {enforced : Prop} {o : DecodeOutcome} (h : IntegrityDecides enforced o)
include h

theorem IntegrityDecides.code_of_ne (hne : o.calcCode ≠ o.recvCode) (henf : enforced) :
    o.code = .integrityFailure := by
  obtain ⟨-, -, hcode⟩ | ⟨heq | hnot, -⟩ := h
  · exact hcode
  · exact absurd heq hne
  · exact absurd henf hnot

theorem IntegrityDecides.code_of_eq (hok : o.calcCode = o.recvCode ∨ ¬ enforced) : o.code = .ok := by
  obtain ⟨hne, henf, -⟩ | ⟨-, hcode⟩ := h
  · exact (hok.elim hne (not_not_intro henf)).elim
  · exact hcode

end

/-- The CRC decides a Classic payload; it is always enforced (R153). -/
theorem integrityDecides_unpackClassic (b : List Byte) {enforced : Prop} (henf : enforced) :
    IntegrityDecides enforced (unpackClassic b) := by
  rcases unpackClassic_cases b with ⟨hcrc, h⟩ | ⟨hcrc, h⟩ <;> rw [h]
  · exact .inr ⟨.inl hcrc, rfl⟩
  · exact .inl ⟨hcrc, henf, rfl⟩

/-- The checksum decides an EG53MA4 payload; it is always enforced (R173). -/
theorem integrityDecides_unpackEg53ma4 (b : List Byte) {enforced : Prop} (henf : enforced) :
    IntegrityDecides enforced (unpackEg53ma4 b) := by
  rcases unpackEg53ma4_cases b with ⟨hsum, h⟩ | ⟨hsum, h⟩ <;> rw [h]
  · exact .inr ⟨.inl hsum, rfl⟩
  · exact .inl ⟨hsum, henf, rfl⟩

/-- The parity decides an SE3 payload, enforced by its enable (R196). -/
theorem integrityDecides_unpackSe3 (b : List Byte) (enf : Bool) {enforced : Prop}
    (henf : enforced ↔ enf = true) : IntegrityDecides enforced (unpackSe3 b enf) := by
  rcases unpackSe3_cases b enf with ⟨hpar, h⟩ | ⟨hpar, hon, h⟩ <;> rw [h]
  · exact .inr ⟨hpar.imp_right fun hoff => by simp [henf, hoff], rfl⟩
  · exact .inl ⟨hpar, henf.mpr hon, rfl⟩

/-- Everything a decode of one of the three variants can do: the length is wrong and nothing is extracted,
or it is accepted and the integrity codes decide, SE3's only when CTRL enforces them (R99, R216). -/
theorem decodeFrame_cases {v : VariantCode} (hv : v ≠ 3) (len : FrameLen) (f : Frame) (enf : Bool) :
    (acceptedLength v len = false ∧ decodeFrame v len f enf = fail .frameLengthMismatch v) ∨
    (acceptedLength v len = true ∧
      IntegrityDecides (v = 2 → enf = true) (decodeFrame v len f enf)) := by
  have hvariants : ∀ v : VariantCode, v ≠ 3 → v = 0 ∨ v = 1 ∨ v = 2 := by decide
  obtain rfl | rfl | rfl := hvariants v hv
  · show _ ∧ decodeClassic len f = _ ∨ _ ∧ IntegrityDecides _ (decodeClassic len f)
    rw [← Bool.not_eq_true, acceptedLength_classic_iff]
    by_cases hlen : len = 68
    · rw [hlen, decodeClassic_68]
      exact .inr ⟨rfl, integrityDecides_unpackClassic _ (absurd · (by decide))⟩
    · exact .inl ⟨hlen, decodeClassic_length f hlen⟩
  · show _ ∧ decodeEg53ma4 len f = _ ∨ _ ∧ IntegrityDecides _ (decodeEg53ma4 len f)
    rw [← Bool.not_eq_true, acceptedLength_eg53ma4_iff]
    by_cases hlen : len = 120
    · rw [hlen, decodeEg53ma4_120]
      exact .inr ⟨rfl, integrityDecides_unpackEg53ma4 _ (absurd · (by decide))⟩
    · exact .inl ⟨hlen, decodeEg53ma4_length f hlen⟩
  · show _ ∧ decodeSe3 len f enf = _ ∨ _ ∧ IntegrityDecides _ (decodeSe3 len f enf)
    rw [← Bool.not_eq_true, acceptedLength_se3_iff]
    by_cases hlen : len = 52 ∨ len = 53
    · rw [decodeSe3_eq_unpackSe3 hlen]
      exact .inr ⟨hlen, integrityDecides_unpackSe3 _ enf (forall_prop_of_true rfl)⟩
    · obtain ⟨h52, h53⟩ := not_or.mp hlen
      exact .inl ⟨hlen, decodeSe3_length f enf h52 h53⟩

/-- Settles O17: the reserved variant reads nothing, and of the two cases of the other variants each clause's
length leaves one. -/
theorem firstFailureDecides : Obligations.FirstFailureDecides := by
  unfold Obligations.FirstFailureDecides
  intro v len f enf o
  have decides (hv : v ≠ 3) (hlen : acceptedLength v len = true) :
      IntegrityDecides (v = 2 → enf = true) o := by
    obtain ⟨hwrong, -⟩ | ⟨-, h⟩ := decodeFrame_cases hv len f enf
    · exact absurd hlen (Bool.eq_false_iff.mp hwrong)
    · exact h
  refine ⟨fun hv => ?_, fun hv hwrong => ?_, fun hv hlen => (decides hv hlen).code_of_ne,
    fun hv hlen hok => (decides hv hlen).code_of_eq (hok.imp_right ?_)⟩
  · subst hv
    rfl
  · obtain ⟨-, h⟩ | ⟨hlen, -⟩ := decodeFrame_cases hv len f enf
    · exact h
    · exact absurd hlen (Bool.eq_false_iff.mp hwrong)
  · rintro ⟨hse3, hoff⟩ henf
    exact Bool.false_ne_true (hoff.symm.trans (henf hse3))

end Sys2Proof.Machine

/-! SUPPORT. Reset and the hazards of a decode in flight: what a guarded write with BUSY = 1 does (R243, R245),
what the reset step leaves (R240), and a decode with nothing loaded since reset (R242). -/

namespace Sys2Proof.Machine

/-- The guarded offsets are those of registers that BUSY guards: with `regOffset_mem_guardedOffsets`,
exactly those (R26, R243). -/
theorem exists_guarded_of_mem_guardedOffsets :
    ∀ off ∈ guardedOffsets, ∃ r : Reg, guardedByBusy r = true ∧ off = regOffset r := by
  simp only [guardedOffsets, List.forall_mem_cons]
  exact ⟨⟨.ctrl, rfl, rfl⟩, ⟨.cmd, rfl, rfl⟩, ⟨.len, rfl, rfl⟩, ⟨.frame 0, rfl, rfl⟩,
    ⟨.frame 1, rfl, rfl⟩, ⟨.frame 2, rfl, rfl⟩, ⟨.frame 3, rfl, rfl⟩, nofun⟩

/-- The step of a write, with BUSY = 1, of a register that BUSY guards (R215, R245). -/
theorem step_guarded_busy {s : State} {r : Reg} {v : Word} {rest : List Event} (hb : s.busy = true)
    (hg : guardedByBusy r = true) (hs : s.schedule = (wrReg r v).event (tfdBase s) :: rest) :
    step s = .next (respond .done (withSchedule rest (ignoreWrite s))) := by
  rw [step_wrReg hs, writeReg_guarded hg, if_pos hb]

/-- Settles O35: each of the seven offsets is a register's that BUSY guards. -/
theorem writesWhileBusyOnlySetWerr : Obligations.WritesWhileBusyOnlySetWerr := by
  unfold Obligations.WritesWhileBusyOnlySetWerr
  intro s off v rest hb hoff hs
  obtain ⟨r, hg, rfl⟩ := exists_guarded_of_mem_guardedOffsets off hoff
  exact step_guarded_busy hb hg hs

/-- What a register reads as is a matter of TFD's own state alone, not of the base address, the host's last
answer or the schedule (R40, R53). -/
theorem readReg_of_sameRegisters {s t : State} (h : sameRegisters s t) (r : Reg) :
    readReg t r = readReg s r := by
  obtain ⟨henf, hbusy, hdone, hwerr, hlen, hframe, hresults, -⟩ := h
  cases r with
  | ctrl => rw [readReg, readReg, ctrlWord, ctrlWord, henf]
  | status => rw [readReg, readReg, statusWord, statusWord, hbusy, hdone, hwerr]
  | len => rw [readReg, readReg, lenWord, lenWord, hlen]
  | frame k => rw [readReg, readReg, hframe]
  | payload k =>
    match k with
    | 0 => exact congrArg Results.payload0 hresults
    | 1 => exact congrArg Results.payload1 hresults
    | 2 => exact congrArg Results.payload2 hresults
  | cmd => rfl
  | _ => rw [readReg, readReg, hresults]

/-- The same of the whole window, the reserved space included (R38, R53). -/
theorem readWindow_of_sameRegisters {s t : State} (h : sameRegisters s t) (off : BitVec 8) :
    readWindow t off = readWindow s off := by
  cases hr : regAt off with
  | none => simp only [readWindow, hr]
  | some r => rw [readWindow_of_regAt hr, readWindow_of_regAt hr, readReg_of_sameRegisters h]

/-- The reset step leaves TFD's own state as after reset, whatever it was (R41, R240). -/
theorem sameRegisters_resetTfd (s : State) : sameRegisters State.reset (resetTfd s) :=
  ⟨rfl, rfl, rfl, rfl, rfl, rfl, rfl, rfl⟩

/-- Settles O45: the reset step is `resetTfd`, whose window reads as the reset state's, and that is read
out by O46. -/
theorem resetStepRestoresTheResetState : Obligations.ResetStepRestoresTheResetState := by
  unfold Obligations.ResetStepRestoresTheResetState
  intro s rest hs
  have hsame := sameRegisters_resetTfd (withSchedule rest s)
  have hwindow := readWindow_of_sameRegisters hsame
  obtain ⟨-, -, hstatus, -, hresult, -⟩ := resetValuesOfTheRegisters
  exact ⟨_, step_of_schedule hs, hsame, (hwindow _).trans hstatus, (hwindow _).trans hresult, hwindow⟩

/-- No variant accepts the length 0, which LEN holds after reset (R41, R99, R242). -/
theorem acceptedLength_zero : ∀ v : VariantCode, acceptedLength v 0 = false := by decide

/-- Settles O47: the command runs with LEN = 0 (`runSteps_command`), a length that no variant accepts, so
by O17 the outcome is the length mismatch. -/
theorem decodeRightAfterResetIsLengthMismatch : Obligations.DecodeRightAfterResetIsLengthMismatch := by
  unfold Obligations.DecodeRightAfterResetIsLengthMismatch
  intro v hv
  have houtcome : commandOutcome (decodeWord v) 0 Frame.reset true =
      fail .frameLengthMismatch (commandVariant v) := by
    obtain ⟨-, hlength, -⟩ := firstFailureDecides (commandVariant v) 0 Frame.reset true
    exact hlength hv (acceptedLength_zero _)
  refine ⟨_, (runSteps_command rfl rfl).trans (exec_eq _ _), ?_, ?_, rfl, rfl⟩
  · exact (resultCode_resultWord _).trans (congrArg (·.code.bits) houtcome)
  · exact (resultVar_resultWord _).trans (congrArg (·.var) houtcome)

end Sys2Proof.Machine
